-- ==== Sys2Proof/Word.lean ====
section
/-! DEFINITION. The word types of RSA-MEE: the 32-bit word of the bus and of commands, and its bytes. -/

namespace Sys2Proof

/-- A word is 32 bits (R16): what one bus access carries, and what one command is (R90). -/
abbrev Word := BitVec 32

/-- What one byte lane of the bus carries (R65). -/
abbrev Byte := BitVec 8

/-- A data-register index, 0 to 15 (R21, R92). -/
abbrev RegIdx := Fin 16

end Sys2Proof
end

