-- ==== Sys2Proof/Config.lean ====
section
/-! DEFINITION. The implementation parameters of R9 and R206, which a platform fixes and no step
changes, and the free value of R224. -/

namespace Sys2Proof

/-- The OPEN parameters. State carries them (log 1: DESIGN CHOICE), so that every statement can be
made for every value of them. -/
structure Params where
  /-- `W`, the width in bits of every data register, key register and operand (R9). -/
  W : Nat
  /-- `BASE`, the bus address of register offset 0 (R9, R60). -/
  base : Nat
  /-- How the bus signals a refused access (R9, R61): an encoding that is left open. -/
  busError : Nat
  /-- Which input of the platform's interrupt controller irq drives (R206). -/
  irqLine : Nat
deriving DecidableEq, Repr

/-- `NW`, the words per W-bit register (R9). -/
def Params.NW (p : Params) : Nat := p.W / 32

/-- The size of the register window in bytes (R60). -/
def windowSize : Nat := 0x4000

/-- The values R9 allows: `W` a multiple of 32 with 32 ≤ W ≤ 4096, `BASE` aligned to 16 KiB. -/
abbrev Params.wf (p : Params) : Prop :=
  p.W % 32 = 0 ∧ 32 ≤ p.W ∧ p.W ≤ 4096 ∧ p.base % windowSize = 0

/-- The parameters State.reset has: the test vectors' W = 32, and zeros (log 1: DESIGN CHOICE). -/
def Params.default : Params := { W := 32, base := 0, busError := 0, irqLine := 0 }

/-- The word that the n-th read of a data or key register word while BUSY = 1 returns: a free value
under no law (R224, U8; log 9). -/
opaque Config.busyRead : Nat → Word

end Sys2Proof
end

