-- ==== Sys2Proof/Syntax.lean ====
section
/-! DEFINITION. The eight commands (R4, R93), the fields of a command word (R91), and a row of the
table of exact patterns (R94). -/

namespace Sys2Proof

/-- One constructor per row of the opcode table. An operand is an index of R0 to R15 (R92); a
constructor has exactly the fields its opcode uses (R93), so every term is a command. ENC and DEC also
read the key registers, which no field names. -/
inductive Instr where
  /-- Validated multiply (R140). -/
  | mul (rd rs1 rs2 : RegIdx)
  /-- Validated subtract (R141). -/
  | sub (rd rs1 rs2 : RegIdx)
  /-- Totient of a two-prime modulus (R142). -/
  | tot (rd rs1 rs2 : RegIdx)
  /-- Coprimality check (R160). It has no destination. -/
  | copr (rs1 rs2 : RegIdx)
  /-- Modular inverse (R161). -/
  | minv (rd rs1 rs2 : RegIdx)
  /-- Modular exponentiation (R180). -/
  | mexp (rd rs1 rs2 rs3 : RegIdx)
  /-- Encryption under the key (R181). -/
  | enc (rd rs1 : RegIdx)
  /-- Decryption under the key (R182). -/
  | dec (rd rs1 : RegIdx)
deriving DecidableEq, Repr

/-- The fields of a command word, as R91 lays them out from bit 0 upward. -/
structure Fields where
  op : BitVec 4
  rd : BitVec 4
  rs1 : BitVec 4
  rs2 : BitVec 4
  rs3 : BitVec 4
  rsv : BitVec 12
deriving DecidableEq, Repr

/-- One row of R94: a word is the row's command exactly when `(word AND mask) = value`. -/
structure Row where
  mnemonic : String
  mask : Word
  value : Word
deriving DecidableEq, Repr

end Sys2Proof
end

