-- ==== Sys2Proof/Machine/State.lean ====
section
/-! DEFINITION. What the machine holds (R20), the host events that reach it, the reasons a step can
stop, and the state after reset (R51). -/

namespace Sys2Proof.Machine

/-- STATUS.ERRCODE: the five values it takes (R200); 5 to 15 never appear (R39; log 17). -/
inductive ErrCode where
  | ok | badarg | opfail | overflow | illegal
deriving DecidableEq, Repr

/-- STATUS.ESTAGE: the four values it takes (R202); 4 to 15 never appear (R40; log 17). -/
inductive Stage where
  /-- 0: success, a command that is not ENC or DEC, or ILLEGAL. -/
  | noStage
  /-- 1: the modulus n = p·q failed. -/
  | modulus
  /-- 2: the totient failed. -/
  | totient
  /-- 3: the coprimality gate of ENC, or the private exponent of DEC, failed. -/
  | exponent
deriving DecidableEq, Repr

/-- What a command function returns (R120). -/
inductive CmdOutcome where
  /-- Success, with the value for the destination. -/
  | ok (v : Nat)
  /-- Success without a destination; only COPR returns it. -/
  | okNoDest
  /-- Failure, with its code and stage. -/
  | fail (code : ErrCode) (stage : Stage)
deriving DecidableEq, Repr

/-- The three key registers (R24). -/
inductive KeyReg where
  | p | q | e
deriving DecidableEq, Repr

/-- INFLIGHT, the command being executed (R47): its opcode, its destination, and the snapshot of its
source registers and of the key. `valid` is the record's presence (log 10). -/
structure InFlight where
  op : BitVec 4
  rd : BitVec 4
  a : Nat
  b : Nat
  c : Nat
  kp : Nat
  kq : Nat
  ke : Nat
deriving DecidableEq, Repr

/-- What an offset of the register window selects (R62). -/
inductive Target where
  | id | cfg | ctrl | status | cmd
  /-- Word j of the slot of data register i. -/
  | data (i : RegIdx) (j : Nat)
  /-- Word j of the slot of a key register. -/
  | key (k : KeyReg) (j : Nat)
  | reserved
deriving DecidableEq, Repr

/-- What the outside sends to the block (R232). Addresses are bus addresses, sizes are in bytes. -/
inductive HostEvent where
  /-- A host read. -/
  | read (addr size : Nat)
  /-- A host write. A write of another size than 4 is refused, so no more than 32 bits of its value
  are ever used (log 7). -/
  | write (addr size : Nat) (v : Word)
  /-- The reset input is asserted and released (R220). -/
  | reset
deriving DecidableEq, Repr

/-- A host event at the port, and how it is ordered with the engine's completion: whether a command
that still runs completes before it (R72, R228; log 4). -/
structure Arrival where
  afterCompletion : Bool
  event : HostEvent
deriving DecidableEq, Repr

/-- The block's answer to a host access (R61, R71; log 6). -/
inductive Reply where
  /-- A read returned this word. -/
  | data (w : Word)
  /-- A write was performed, ignored, or refused with ACCERR. -/
  | done
  /-- The access was refused on the bus, with the platform's error response (R61). -/
  | busError (response : Nat)
deriving DecidableEq, Repr

/-- The whole machine. `params`, `arrivals`, `reply` and `draws` are the model's own fields; the others
are the list of R20, of which ID, CFG, STATUS.BUSY, STATUS.IRQ and irq are computed from these. -/
structure State where
  /-- The implementation parameters (R9; log 1). No step changes them. -/
  params : Params
  /-- R0 to R15 (R21). -/
  regs : Vector Nat 16
  /-- KEY_P (R24). -/
  keyP : Nat
  /-- KEY_Q (R24). -/
  keyQ : Nat
  /-- KEY_E (R24). -/
  keyE : Nat
  /-- CTRL.IE (R32). -/
  ie : Bool
  /-- CTRL.KLOCK (R33). -/
  klock : Bool
  /-- STATUS.DONE (R37). -/
  done : Bool
  /-- STATUS.ACCERR (R38). -/
  accerr : Bool
  /-- STATUS.ERRCODE (R39). -/
  errcode : ErrCode
  /-- STATUS.ESTAGE (R40). -/
  estage : Stage
  /-- The CMD readback (R43). -/
  cmd : Word
  /-- INFLIGHT (R47). It is present exactly while STATUS.BUSY = 1. -/
  inflight : Option InFlight
  /-- The host events that have not been performed yet, in arrival order (R72; log 3). -/
  arrivals : List Arrival
  /-- The answer to the last host access (log 6). -/
  reply : Option Reply
  /-- How many free values reads while BUSY = 1 have taken (R224; log 9). -/
  draws : Nat
deriving DecidableEq, Repr

/-- The state of R51 under given parameters. -/
def State.resetOf (p : Params) : State :=
  { params := p, regs := Vector.replicate 16 0, keyP := 0, keyQ := 0, keyE := 0,
    ie := false, klock := false, done := false, accerr := false, errcode := .ok, estage := .noStage,
    cmd := 0, inflight := none, arrivals := [], reply := none, draws := 0 }

/-- The machine right after reset (R51), under the parameters of log 1. -/
def State.reset : State := State.resetOf Params.default

/-- Why the machine stops. -/
inductive Fault where
  /-- A host access whose address lies outside the window of R60 (step, through State.perform). It is no
  access of this block. Safe (log 8). -/
  | outsideWindow (addr : Nat)
  /-- A meaning was applied to a state in which no command runs, where completion is not enabled
  (R126). No step raises it. Safe (log 12). -/
  | notRunning
  /-- The INFLIGHT record names no command of R93 (step, through engineStep). No step of a state that
  meets the invariant raises it. Safe (log 11). -/
  | noCommand
deriving DecidableEq, Repr

/-- Why a step has no meaning. -/
inductive Refusal where
  /-- An instruction that is not modelled (exec). No arm raises it. Safe. -/
  | notModelled (mnemonic : String)
deriving DecidableEq, Repr

end Sys2Proof.Machine
end

