-- ==== Sys2Proof/Machine/Flags.lean ====
section
/-! DEFINITION. STATUS, CTRL, ID and CFG as the words the host sees, the irq level, and what a host
write does to CTRL and STATUS (R28 to R41, R46). -/

namespace Sys2Proof.Machine

/-- STATUS.BUSY, and INFLIGHT.valid, which always equals it (R36, R47). -/
def State.busy (s : State) : Bool := s.inflight.isSome

/-- The irq level, and STATUS.IRQ: `CTRL.IE AND STATUS.DONE` (R41, R46). -/
def State.irq (s : State) : Bool := s.ie && s.done

/-- What the block drives on an input of the platform's interrupt controller: irq on input IRQ_LINE,
nothing on any other (R206). -/
def State.drives (s : State) (line : Nat) : Bool := line == s.params.irqLine && s.irq

/-- The code of R200. -/
def ErrCode.code : ErrCode → BitVec 4
  | .ok => 0
  | .badarg => 1
  | .opfail => 2
  | .overflow => 3
  | .illegal => 4

/-- The number of R202. -/
def Stage.code : Stage → BitVec 4
  | .noStage => 0
  | .modulus => 1
  | .totient => 2
  | .exponent => 3

/-- ID (R28). -/
def idWord : Word := 0x5253414D

/-- CFG: `{VERSION, NREG, WIDTH}` (R29). -/
def cfgWord (p : Params) : Word := (0x01 : BitVec 8) ++ (0x10 : BitVec 8) ++ BitVec.ofNat 16 p.W

/-- CTRL as it reads (R30). -/
def State.ctrlWord (s : State) : Word := (0 : BitVec 30) ++ BitVec.ofBool s.klock ++ BitVec.ofBool s.ie

/-- STATUS as it reads (R34). -/
def State.statusWord (s : State) : Word :=
  (0 : BitVec 16) ++ s.estage.code ++ s.errcode.code ++ (0 : BitVec 4) ++ BitVec.ofBool s.irq ++
    BitVec.ofBool s.accerr ++ BitVec.ofBool s.done ++ BitVec.ofBool s.busy

/-- A host write to CTRL: IE is written, KLOCK is write-1-to-set (R31, R33). -/
def State.writeCtrl (v : Word) (s : State) : State :=
  { s with ie := v.getLsbD 0, klock := s.klock || v.getLsbD 1 }

/-- A host write to STATUS: DONE and ACCERR are write-1-to-clear (R35). -/
def State.writeStatus (v : Word) (s : State) : State :=
  { s with done := s.done && !v.getLsbD 1, accerr := s.accerr && !v.getLsbD 2 }

end Sys2Proof.Machine
end

