-- ==== Sys2Proof/WellFormed.lean ====
section
/-! DEFINITION. When the fields of a word are those of a command: the opcode is one of 1 to 8, RSV is
zero, and so is every field the opcode does not use (R93, R96). -/

namespace Sys2Proof

/-- The "fields that must be 0" column of R93; opcodes 0 and 9 to 15 are no command. -/
def Fields.wf (f : Fields) : Bool :=
  f.rsv == 0 &&
  match f.op.toNat with
  | 1 => f.rs3 == 0
  | 2 => f.rs3 == 0
  | 3 => f.rs3 == 0
  | 4 => f.rd == 0 && f.rs3 == 0
  | 5 => f.rs3 == 0
  | 6 => true
  | 7 => f.rs2 == 0 && f.rs3 == 0
  | 8 => f.rs2 == 0 && f.rs3 == 0
  | _ => false

end Sys2Proof
end

