-- ==== Sys2Proof/Decode.lean ====
section
/-! DEFINITION. Decoding of a command word, total, rejecting by name, and after it the encoder
(R90 to R98). -/

namespace Sys2Proof

/-- The operand fields that a rejection can name. -/
inductive FieldName where
  | rd | rs2 | rs3
deriving DecidableEq, Repr

/-- Why a word is no command (R96). -/
inductive Reject where
  /-- OP is 0 or 9 to 15. -/
  | reservedOpcode (op : BitVec 4)
  /-- RSV is not zero. -/
  | reservedBits (rsv : BitVec 12)
  /-- A field that the opcode does not use is not zero. -/
  | unusedField (field : FieldName)
  /-- Not the four bytes of one word (R90). -/
  | notOneWord (bytes : Nat)
deriving DecidableEq, Repr

/-- Byte lane k of a word carries bits `[8k+7 : 8k]` (R65). -/
def byteLane (w : Word) (k : Nat) : Byte := w.extractLsb' (8 * k) 8

/-- The four lanes of a word, lane 0 first. -/
def lanesOf (w : Word) : List Byte := [byteLane w 0, byteLane w 1, byteLane w 2, byteLane w 3]

/-- The word whose lanes these are, lane 0 first (R65). -/
def wordOfLanes (b0 b1 b2 b3 : Byte) : Word := b3 ++ b2 ++ b1 ++ b0

/-- The fields of a word (R91). -/
def fieldsOf (w : Word) : Fields :=
  { op := w.extractLsb' 0 4, rd := w.extractLsb' 4 4, rs1 := w.extractLsb' 8 4,
    rs2 := w.extractLsb' 12 4, rs3 := w.extractLsb' 16 4, rsv := w.extractLsb' 20 12 }

/-- A 4-bit field as the register index it names (R92): unsigned, not scaled. -/
def regOf (f : BitVec 4) : RegIdx := f.toFin

/-- `i`, unless the unused field `v` is not zero (R96). -/
def unlessUsed (name : FieldName) (v : BitVec 4) (i : Except Reject Instr) : Except Reject Instr :=
  if v = 0 then i else .error (.unusedField name)

/-- The opcode map of R93. -/
def decodeFields (f : Fields) : Except Reject Instr :=
  if f.rsv ≠ 0 then .error (.reservedBits f.rsv) else
  match f.op.toNat with
  | 1 => unlessUsed .rs3 f.rs3 (.ok (.mul (regOf f.rd) (regOf f.rs1) (regOf f.rs2)))
  | 2 => unlessUsed .rs3 f.rs3 (.ok (.sub (regOf f.rd) (regOf f.rs1) (regOf f.rs2)))
  | 3 => unlessUsed .rs3 f.rs3 (.ok (.tot (regOf f.rd) (regOf f.rs1) (regOf f.rs2)))
  | 4 => unlessUsed .rd f.rd (unlessUsed .rs3 f.rs3 (.ok (.copr (regOf f.rs1) (regOf f.rs2))))
  | 5 => unlessUsed .rs3 f.rs3 (.ok (.minv (regOf f.rd) (regOf f.rs1) (regOf f.rs2)))
  | 6 => .ok (.mexp (regOf f.rd) (regOf f.rs1) (regOf f.rs2) (regOf f.rs3))
  | 7 => unlessUsed .rs2 f.rs2 (unlessUsed .rs3 f.rs3 (.ok (.enc (regOf f.rd) (regOf f.rs1))))
  | 8 => unlessUsed .rs2 f.rs2 (unlessUsed .rs3 f.rs3 (.ok (.dec (regOf f.rd) (regOf f.rs1))))
  | _ => .error (.reservedOpcode f.op)

/-- The command a word is, or why it is none. Nothing but the word is needed (R90). -/
def decode (w : Word) : Except Reject Instr := decodeFields (fieldsOf w)

/-- The command that bytes, the one at the lowest address first, are (R65, R90). -/
def decodeBytes : List Byte → Except Reject Instr
  | [b0, b1, b2, b3] => decode (wordOfLanes b0 b1 b2 b3)
  | bs => .error (.notOneWord bs.length)

/-- The exact patterns of the legal commands (R94). -/
def commandRows : List Row :=
  [ { mnemonic := "MUL",  mask := 0xFFFF000F, value := 0x00000001 },
    { mnemonic := "SUB",  mask := 0xFFFF000F, value := 0x00000002 },
    { mnemonic := "TOT",  mask := 0xFFFF000F, value := 0x00000003 },
    { mnemonic := "COPR", mask := 0xFFFF00FF, value := 0x00000004 },
    { mnemonic := "MINV", mask := 0xFFFF000F, value := 0x00000005 },
    { mnemonic := "MEXP", mask := 0xFFF0000F, value := 0x00000006 },
    { mnemonic := "ENC",  mask := 0xFFFFF00F, value := 0x00000007 },
    { mnemonic := "DEC",  mask := 0xFFFFF00F, value := 0x00000008 } ]

/-- A word matches a row of R94. -/
def Row.matchesWord (r : Row) (w : Word) : Bool := (w &&& r.mask) == r.value

/-- The legality predicate, line for line (R95). -/
def legal (w : Word) : Bool := commandRows.any fun r => r.matchesWord w

/-! The encoder. -/

/-- A register index as the field that names it (R92). -/
def fieldOf (i : RegIdx) : BitVec 4 := BitVec.ofFin i

/-- The fields of a command's word: its opcode, its operands, and 0 in each field its opcode does not
use (R93, R98). -/
def Instr.fields : Instr → Fields
  | .mul rd rs1 rs2 => { op := 1, rd := fieldOf rd, rs1 := fieldOf rs1, rs2 := fieldOf rs2, rs3 := 0, rsv := 0 }
  | .sub rd rs1 rs2 => { op := 2, rd := fieldOf rd, rs1 := fieldOf rs1, rs2 := fieldOf rs2, rs3 := 0, rsv := 0 }
  | .tot rd rs1 rs2 => { op := 3, rd := fieldOf rd, rs1 := fieldOf rs1, rs2 := fieldOf rs2, rs3 := 0, rsv := 0 }
  | .copr rs1 rs2 => { op := 4, rd := 0, rs1 := fieldOf rs1, rs2 := fieldOf rs2, rs3 := 0, rsv := 0 }
  | .minv rd rs1 rs2 => { op := 5, rd := fieldOf rd, rs1 := fieldOf rs1, rs2 := fieldOf rs2, rs3 := 0, rsv := 0 }
  | .mexp rd rs1 rs2 rs3 =>
      { op := 6, rd := fieldOf rd, rs1 := fieldOf rs1, rs2 := fieldOf rs2, rs3 := fieldOf rs3, rsv := 0 }
  | .enc rd rs1 => { op := 7, rd := fieldOf rd, rs1 := fieldOf rs1, rs2 := 0, rs3 := 0, rsv := 0 }
  | .dec rd rs1 => { op := 8, rd := fieldOf rd, rs1 := fieldOf rs1, rs2 := 0, rs3 := 0, rsv := 0 }

/-- `(RS3 << 16) | (RS2 << 12) | (RS1 << 8) | (RD << 4) | OP`, with RSV in bits 31 to 20 (R91, R98). -/
def Fields.toWord (f : Fields) : Word :=
  (f.rsv.setWidth 32 <<< 20) ||| (f.rs3.setWidth 32 <<< 16) ||| (f.rs2.setWidth 32 <<< 12) |||
    (f.rs1.setWidth 32 <<< 8) ||| (f.rd.setWidth 32 <<< 4) ||| f.op.setWidth 32

/-- The command word of a command (R98). -/
def encode (i : Instr) : Word := i.fields.toWord

/-- The command that a row's word, numbered as the opcode table numbers it, decodes to: the word's
bytes in lane order, given to the decoder. -/
def decodeTableWord (nbits w : Nat) : Option Instr :=
  (decodeBytes (lanesOf (BitVec.ofNat 32 (w % 2 ^ nbits)))).toOption

end Sys2Proof
end

