-- ==== Sys2Proof/Machine/Operands.lean ====
section
/-! DEFINITION. Reading and writing registers, the words of a register, the snapshot a command takes
of its operands, and the command that an INFLIGHT record stands for. -/

namespace Sys2Proof.Machine

/-- `R[i]` (R13, R21). -/
def State.reg (s : State) (i : RegIdx) : Nat := s.regs[i]

/-- `R[i] <- v` (R13). -/
def State.setReg (i : RegIdx) (v : Nat) (s : State) : State := { s with regs := s.regs.set i v }

/-- `KEY_P`, `KEY_Q`, `KEY_E` (R13, R24). -/
def State.key (s : State) : KeyReg → Nat
  | .p => s.keyP
  | .q => s.keyQ
  | .e => s.keyE

/-- `KEY_x <- v` (R13). -/
def State.setKey (k : KeyReg) (v : Nat) (s : State) : State :=
  match k with
  | .p => { s with keyP := v }
  | .q => { s with keyQ := v }
  | .e => { s with keyE := v }

/-- Word j of a register: bits `[32j+31 : 32j]` (R63). -/
def wordOf (x j : Nat) : Word := BitVec.ofNat 32 (x / 2 ^ (32 * j))

/-- The register `x` with bits `[32j+31 : 32j]` replaced by `v` (R63). -/
def replaceWord (x j : Nat) (v : Word) : Nat :=
  x % 2 ^ (32 * j) + (v.toNat + x / 2 ^ (32 * (j + 1)) * 2 ^ 32) * 2 ^ (32 * j)

/-- The snapshot taken at acceptance of the word `w`: every operand is read before the command writes
anything (R124). -/
def snapshot (w : Word) (s : State) : InFlight :=
  let f := fieldsOf w
  { op := f.op, rd := f.rd, a := s.reg (regOf f.rs1), b := s.reg (regOf f.rs2), c := s.reg (regOf f.rs3),
    kp := s.keyP, kq := s.keyQ, ke := s.keyE }

/-- The word of the running command: OP and RD from INFLIGHT (R126), and the source fields, whose
values the snapshot already holds, from the CMD readback (R43; log 11). -/
def runningWord (r : InFlight) (cmd : Word) : Word := (cmd.extractLsb' 8 24 ++ r.rd) ++ r.op

/-- The running command, if INFLIGHT names one (log 11). -/
def runningInstr (r : InFlight) (cmd : Word) : Option Instr := (decode (runningWord r cmd)).toOption

end Sys2Proof.Machine
end

