-- ==== Sys2Proof/Machine/Ops.lean ====
section
/-! DEFINITION. The shared operations: acceptance, refusal, completion and reset (R120 to R127, R220),
and the sequencing of a command's partial results. -/

namespace Sys2Proof.Machine

/-! Sequencing: the first failure ends a command (R208). -/

/-- Go on with the value of a successful part. -/
def CmdOutcome.andThen (o : CmdOutcome) (k : Nat → CmdOutcome) : CmdOutcome :=
  match o with
  | .ok v => k v
  | .okNoDest => .okNoDest
  | .fail code stage => .fail code stage

/-- Go on once a gate, which yields no value, has passed. -/
def CmdOutcome.gate (o : CmdOutcome) (k : CmdOutcome) : CmdOutcome :=
  match o with
  | .ok _ => k
  | .okNoDest => k
  | .fail code stage => .fail code stage

/-! Acceptance. -/

/-- A host write that is refused: it changes nothing, and sets ACCERR (R33, R38, R225). -/
def State.refuseWrite (s : State) : State := { s with accerr := true }

/-- Acceptance of a legal word (R121). -/
def State.accept (w : Word) (s : State) : State :=
  { s with cmd := w, done := false, errcode := .ok, estage := .noStage, inflight := some (snapshot w s) }

/-- Acceptance of an illegal word, which completes at once (R122). -/
def State.acceptIllegal (w : Word) (s : State) : State :=
  { s with cmd := w, errcode := .illegal, estage := .noStage, done := true }

/-- A host write of `w` to CMD (R121 to R123). -/
def State.offerCommand (w : Word) (s : State) : State :=
  if s.busy then s.refuseWrite else if legal w then s.accept w else s.acceptIllegal w

/-! Completion. -/

/-- `R[rd] <- v`, for a command that has a destination. -/
def State.writeDest (rd : Option RegIdx) (v : Nat) (s : State) : State :=
  match rd with
  | some i => s.setReg i v
  | none => s

/-- The common completion fields, and the end of the running command (R126). -/
def State.finish (code : ErrCode) (stage : Stage) (s : State) : State :=
  { s with errcode := code, estage := stage, done := true, inflight := none }

/-- What the outcome of the running command does to the state (R126): success writes the destination,
failure writes no register (R127). -/
def State.complete (rd : Option RegIdx) (o : CmdOutcome) (s : State) : State :=
  match o with
  | .ok v => (s.writeDest rd v).finish .ok .noStage
  | .okNoDest => s.finish .ok .noStage
  | .fail code stage => s.finish code stage

/-- The completion step of a command with command function `f` (R125, R126). It is enabled exactly
while a command runs. -/
def completing (rd : Option RegIdx) (f : InFlight → CmdOutcome) (s : State) :
    Host.Outcome State Fault Refusal :=
  match s.inflight with
  | some r => .next (s.complete rd (f r))
  | none => .fault .notRunning

/-! Reset. -/

/-- The reset input (R220): every piece of state takes its value of R51, and a running command is
abandoned. The parameters, the events that are still to come and the count of free values are no
state of the block (log 15). -/
def State.hardReset (s : State) : State :=
  { State.resetOf s.params with arrivals := s.arrivals, draws := s.draws }

/-- The state right after the acceptance of `w` with no host event to come (log 13). -/
def State.loadCommand (w : Word) (s : State) : State :=
  { State.offerCommand w { s with inflight := none } with arrivals := [] }

end Sys2Proof.Machine
end

