-- ==== Sys2Proof/Machine/Bus.lean ====
section
/-! DEFINITION. The register window: which register word an offset selects (R62), what a host read
returns (R71) and what a host write does (R70). -/

namespace Sys2Proof.Machine

/-- A bus address lies in the window (R60). -/
def inWindow (p : Params) (addr : Nat) : Bool := p.base ≤ addr && addr < p.base + windowSize

/-- The layout of the window (R62, R66). Each slot has 512 bytes, of 128 words (R63). -/
def targetOf (off : Nat) : Target :=
  if off = 0x0000 then .id
  else if off = 0x0004 then .cfg
  else if off = 0x0008 then .ctrl
  else if off = 0x000C then .status
  else if off = 0x0010 then .cmd
  else if off < 0x1000 then .reserved
  else if off < 0x3000 then .data (Fin.ofNat 16 ((off - 0x1000) / 0x200)) (off % 0x200 / 4)
  else if off < 0x3200 then .key .p (off % 0x200 / 4)
  else if off < 0x3400 then .key .q (off % 0x200 / 4)
  else if off < 0x3600 then .key .e (off % 0x200 / 4)
  else .reserved

/-- The slot of a data register (R62, R103). -/
def dataSlot (i : RegIdx) : Nat := 0x1000 + 0x200 * i.val

/-- The slot of a key register (R62, R103). -/
def keySlot : KeyReg → Nat
  | .p => 0x3000
  | .q => 0x3200
  | .e => 0x3400

/-- A host read of word j of a register that holds x (R71): words from NW on read as zero (R64); while
BUSY = 1 a backed word reads as a fresh free value (R224; log 9). -/
def State.readRegWord (x j : Nat) (s : State) : Word × State :=
  if s.params.NW ≤ j then (0, s)
  else if s.busy then (Config.busyRead s.draws, { s with draws := s.draws + 1 })
  else (wordOf x j, s)

/-- A host read of the word an offset selects (R71). No read changes the block (R69); only the count of
free values, which is the model's own, moves. -/
def State.readTarget (t : Target) (s : State) : Word × State :=
  match t with
  | .id => (idWord, s)
  | .cfg => (cfgWord s.params, s)
  | .ctrl => (s.ctrlWord, s)
  | .status => (s.statusWord, s)
  | .cmd => (s.cmd, s)
  | .data i j => s.readRegWord (s.reg i) j
  | .key k j => s.readRegWord (s.key k) j
  | .reserved => (0, s)

/-- A host write to the word an offset selects (R70): ID, CFG, reserved offsets and words from NW on
ignore it (R28, R29, R64, R66); a data or key word refuses it while BUSY = 1 (R225), and a key word
while KLOCK = 1 (R33). -/
def State.writeTarget (t : Target) (v : Word) (s : State) : State :=
  match t with
  | .id => s
  | .cfg => s
  | .ctrl => s.writeCtrl v
  | .status => s.writeStatus v
  | .cmd => s.offerCommand v
  | .data i j =>
      if s.params.NW ≤ j then s
      else if s.busy then s.refuseWrite
      else s.setReg i (replaceWord (s.reg i) j v)
  | .key k j =>
      if s.params.NW ≤ j then s
      else if s.busy || s.klock then s.refuseWrite
      else s.setKey k (replaceWord (s.key k) j v)
  | .reserved => s

/-- The block answers only 32-bit accesses at offsets that are multiples of 4 (R61). -/
def answers (off size : Nat) : Bool := size == 4 && off % 4 == 0

/-- The answer to a host access. -/
def State.replyWith (r : Reply) (s : State) : State := { s with reply := some r }

/-- A host read at an offset of the window (R61, R68, R71). A refused one has no effect but the bus
error (log 7). -/
def State.hostRead (off size : Nat) (s : State) : State :=
  if answers off size then
    let (w, t) := s.readTarget (targetOf off)
    t.replyWith (.data w)
  else s.replyWith (.busError s.params.busError)

/-- A host write at an offset of the window (R61, R68, R70). -/
def State.hostWrite (off size : Nat) (v : Word) (s : State) : State :=
  if answers off size then (s.writeTarget (targetOf off) v).replyWith .done
  else s.replyWith (.busError s.params.busError)

/-- One host event (R232). The window is BASE to BASE + 0x3FFF (R60), and the block sees the offset
from BASE (R67); an address outside it is no access of the block (log 8). -/
def State.perform (e : HostEvent) (s : State) : Host.Outcome State Fault Refusal :=
  match e with
  | .read addr size =>
      if inWindow s.params addr then .next (s.hostRead (addr - s.params.base) size)
      else .fault (.outsideWindow addr)
  | .write addr size v =>
      if inWindow s.params addr then .next (s.hostWrite (addr - s.params.base) size v)
      else .fault (.outsideWindow addr)
  | .reset => .next s.hardReset

end Sys2Proof.Machine
end

