-- ==== Sys2Proof/Machine/Arith.lean ====
section
/-! DEFINITION. Validated arithmetic and totient: MUL, SUB, TOT (R140 to R146). Arithmetic is exact
on the naturals (R12, R147). -/

namespace Sys2Proof.Machine

/-- Validated multiply (R143). -/
def vmul (x y : Nat) (s : Stage) : CmdOutcome :=
  if x = 0 ∨ y = 0 then .fail .badarg s else .ok (x * y)

/-- Validated subtract (R144). -/
def vsub (x y : Nat) (s : Stage) : CmdOutcome :=
  if x < y then .fail .badarg s else .ok (x - y)

/-- `vmul(vsub(p, 1), vsub(q, 1))`, evaluated from left to right (R145). -/
def totient (p q : Nat) (s : Stage) : CmdOutcome :=
  (vsub p 1 s).andThen fun x => (vsub q 1 s).andThen fun y => vmul x y s

/-- The only place where W bounds a value (R146). -/
def fit (W t : Nat) (s : Stage) : CmdOutcome :=
  if 2 ^ W ≤ t then .fail .overflow s else .ok t

/-- The command function of MUL (R140). -/
def fMul (W a b : Nat) : CmdOutcome := (vmul a b .noStage).andThen fun t => fit W t .noStage

/-- The command function of SUB (R141). -/
def fSub (a b : Nat) : CmdOutcome := vsub a b .noStage

/-- The command function of TOT (R142). -/
def fTot (W p q : Nat) : CmdOutcome := (totient p q .noStage).andThen fun t => fit W t .noStage

/-- MUL (R140). The sources were read when the command was accepted (R124), so the indices rs1 and rs2
are not used again. -/
def execMul (rd _rs1 _rs2 : RegIdx) (s : State) : Host.Outcome State Fault Refusal :=
  completing (some rd) (fun r => fMul s.params.W r.a r.b) s

/-- SUB (R141). -/
def execSub (rd _rs1 _rs2 : RegIdx) (s : State) : Host.Outcome State Fault Refusal :=
  completing (some rd) (fun r => fSub r.a r.b) s

/-- TOT (R142). -/
def execTot (rd _rs1 _rs2 : RegIdx) (s : State) : Host.Outcome State Fault Refusal :=
  completing (some rd) (fun r => fTot s.params.W r.a r.b) s

end Sys2Proof.Machine
end

