-- ==== Sys2Proof/Machine/NumTheory.lean ====
section
/-! DEFINITION. Coprimality check and modular inverse: COPR, MINV (R160 to R168). -/

namespace Sys2Proof.Machine

/-- The loop of R168: replace (x, y) by (y, x mod y) until y = 0. The first argument bounds the number
of iterations. -/
def euclidLoop : Nat → Nat → Nat → Nat
  | 0, x, _ => x
  | n + 1, x, y => if y = 0 then x else euclidLoop n y (x % y)

/-- `gcd(a, b)` (R168). The second component decreases from b, so b iterations reach 0 (R169). -/
def euclid (a b : Nat) : Nat := euclidLoop b a b

/-- The loop of R165, on (r0, r1) and (t0, t1); it answers the final r0 and t0. The first argument
bounds the number of iterations. -/
def extEuclidLoop (m : Nat) : Nat → Nat → Nat → Nat → Nat → Nat × Nat
  | 0, r0, _, t0, _ => (r0, t0)
  | n + 1, r0, r1, t0, t1 =>
      if r1 = 0 then (r0, t0)
      else extEuclidLoop m n r1 (r0 - r0 / r1 * r1) t1 ((t0 + m - r0 / r1 * t1 % m) % m)

/-- `ext_euclid(x, m)` (R165): gcd(x, m), and the inverse of x modulo m when that is 1. The second
component starts below m and decreases, so m iterations reach 0. -/
def extEuclid (x m : Nat) : Nat × Nat := extEuclidLoop m m m (x % m) 0 1

/-- The gate that ENC uses (R162). -/
def coprime (x y : Nat) (s : Stage) : CmdOutcome :=
  if euclid x y = 1 then .okNoDest else .fail .opfail s

/-- The modular inverse (R163), with the inverse from the datapath of R165 (log 14). -/
def modinv (x m : Nat) (s : Stage) : CmdOutcome :=
  if m = 0 then .fail .badarg s
  else if euclid x m ≠ 1 then .fail .opfail s
  else .ok (extEuclid x m).2

/-- The command function of COPR (R160). -/
def fCopr (a b : Nat) : CmdOutcome := coprime a b .noStage

/-- The command function of MINV (R161). -/
def fMinv (x m : Nat) : CmdOutcome := modinv x m .noStage

/-- COPR (R160). It has no destination. -/
def execCopr (_rs1 _rs2 : RegIdx) (s : State) : Host.Outcome State Fault Refusal :=
  completing none (fun r => fCopr r.a r.b) s

/-- MINV (R161). -/
def execMinv (rd _rs1 _rs2 : RegIdx) (s : State) : Host.Outcome State Fault Refusal :=
  completing (some rd) (fun r => fMinv r.a r.b) s

end Sys2Proof.Machine
end

