-- ==== Sys2Proof/Machine/ModExp.lean ====
section
/-! DEFINITION. Modular exponentiation, encryption and decryption: MEXP, ENC, DEC (R180 to R184). -/

namespace Sys2Proof.Machine

/-- `bitlen(k)` (R184). -/
def bitlen (k : Nat) : Nat := if k = 0 then 0 else Nat.log2 k + 1

/-- The loop of R184: the bits of k from bit i - 1 down to bit 0, squaring at each and multiplying by b
where the bit is 1. -/
def squareMultiply (b k m : Nat) : Nat → Nat → Nat
  | 0, acc => acc
  | i + 1, acc => squareMultiply b k m i (if k.testBit i then acc * acc % m * b % m else acc * acc % m)

/-- `modexp(base, k, m)` for m ≥ 1 (R183), by the datapath of R184 (log 14). -/
def modexp (base k m : Nat) : Nat := squareMultiply (base % m) k m (bitlen k) (1 % m)

/-- The command function of MEXP (R180). -/
def fMexp (base k m : Nat) : CmdOutcome :=
  if m = 0 then .fail .badarg .noStage else .ok (modexp base k m)

/-- Stages 1 and 2, which ENC and DEC share (R181, R182): the modulus n and the totient. -/
def keyStages (W p q : Nat) (rest : Nat → Nat → CmdOutcome) : CmdOutcome :=
  (vmul p q .modulus).andThen fun n =>
  (fit W n .modulus).andThen fun n =>
  (totient p q .totient).andThen fun ph => rest n ph

/-- The command function of ENC (R181). -/
def fEnc (W msg p q e : Nat) : CmdOutcome :=
  keyStages W p q fun n ph => (coprime e ph .exponent).gate (.ok (modexp msg e n))

/-- The command function of DEC (R182). -/
def fDec (W ct p q e : Nat) : CmdOutcome :=
  keyStages W p q fun n ph => (modinv e ph .exponent).andThen fun d => .ok (modexp ct d n)

/-- MEXP (R180). -/
def execMexp (rd _rs1 _rs2 _rs3 : RegIdx) (s : State) : Host.Outcome State Fault Refusal :=
  completing (some rd) (fun r => fMexp r.a r.b r.c) s

/-- ENC (R181). -/
def execEnc (rd _rs1 : RegIdx) (s : State) : Host.Outcome State Fault Refusal :=
  completing (some rd) (fun r => fEnc s.params.W r.a r.kp r.kq r.ke) s

/-- DEC (R182). -/
def execDec (rd _rs1 : RegIdx) (s : State) : Host.Outcome State Fault Refusal :=
  completing (some rd) (fun r => fDec s.params.W r.a r.kp r.kq r.ke) s

end Sys2Proof.Machine
end

