-- ==== Sys2Proof/Machine/Dispatch.lean ====
section
/-! DEFINITION. One arm per command. `exec i s` is the completion of the command i that runs in s
(R126; log 12). -/

namespace Sys2Proof.Machine

def exec (i : Instr) (s : State) : Host.Outcome State Fault Refusal :=
  match i with
  | .mul rd rs1 rs2 => Sys2Proof.Machine.execMul rd rs1 rs2 s
  | .sub rd rs1 rs2 => Sys2Proof.Machine.execSub rd rs1 rs2 s
  | .tot rd rs1 rs2 => Sys2Proof.Machine.execTot rd rs1 rs2 s
  | .copr rs1 rs2 => Sys2Proof.Machine.execCopr rs1 rs2 s
  | .minv rd rs1 rs2 => Sys2Proof.Machine.execMinv rd rs1 rs2 s
  | .mexp rd rs1 rs2 rs3 => Sys2Proof.Machine.execMexp rd rs1 rs2 rs3 s
  | .enc rd rs1 => Sys2Proof.Machine.execEnc rd rs1 s
  | .dec rd rs1 => Sys2Proof.Machine.execDec rd rs1 s

end Sys2Proof.Machine
end

