-- ==== Sys2Proof/Machine/Engine.lean ====
section
/-! DEFINITION. The two agents' moves, and which of them is next (R17, R72, R228). -/

namespace Sys2Proof.Machine

/-- The completion of the running command: the meaning of the command INFLIGHT stands for (R126). -/
def engineStep (r : InFlight) (s : State) : Host.Outcome State Fault Refusal :=
  match runningInstr r s.cmd with
  | some i => exec i s
  | none => .fault .noCommand

/-- The next move. With a command running, it is the completion when no host event is left (R129,
R233) or the next event is ordered after it (R228; log 4); otherwise it is the next host event. With
neither, nothing happens (log 5). -/
def nextMove (s : State) : Host.Outcome State Fault Refusal :=
  match s.arrivals, s.inflight with
  | [], none => .next s
  | [], some r => engineStep r s
  | a :: rest, none => State.perform a.event { s with arrivals := rest }
  | a :: rest, some r =>
      if a.afterCompletion then engineStep r s else State.perform a.event { s with arrivals := rest }

end Sys2Proof.Machine
end

