-- ==== Sys2Proof/Machine/Assembler.lean ====
section
/-! DEFINITION. The assembler text of a command, over characters: writing it and reading it (R99, R100,
R107; log 21). -/

namespace Sys2Proof.Machine

/-- The name `r0` to `r15` of a data register (R107). -/
def regText (i : RegIdx) : List Char :=
  'r' :: (if i.val < 10 then [Char.ofNat (48 + i.val)] else ['1', Char.ofNat (38 + i.val)])

/-- Operands, separated by commas (R99). -/
def operandsText : List RegIdx → List Char
  | [] => []
  | [i] => regText i
  | i :: is => regText i ++ [',', ' '] ++ operandsText is

/-- The lowercase mnemonics (R99). -/
def mnemonicText : Instr → List Char
  | .mul _ _ _ => ['m', 'u', 'l']
  | .sub _ _ _ => ['s', 'u', 'b']
  | .tot _ _ _ => ['t', 'o', 't']
  | .copr _ _ => ['c', 'o', 'p', 'r']
  | .minv _ _ _ => ['m', 'i', 'n', 'v']
  | .mexp _ _ _ _ => ['m', 'e', 'x', 'p']
  | .enc _ _ => ['e', 'n', 'c']
  | .dec _ _ => ['d', 'e', 'c']

/-- The operands a command is written with, in the order RD, RS1, RS2, RS3 (R99). -/
def operandsOf : Instr → List RegIdx
  | .mul rd rs1 rs2 => [rd, rs1, rs2]
  | .sub rd rs1 rs2 => [rd, rs1, rs2]
  | .tot rd rs1 rs2 => [rd, rs1, rs2]
  | .copr rs1 rs2 => [rs1, rs2]
  | .minv rd rs1 rs2 => [rd, rs1, rs2]
  | .mexp rd rs1 rs2 rs3 => [rd, rs1, rs2, rs3]
  | .enc rd rs1 => [rd, rs1]
  | .dec rd rs1 => [rd, rs1]

/-- A command as it is written (R99). -/
def asmText (i : Instr) : List Char := mnemonicText i ++ [' '] ++ operandsText (operandsOf i)

/-- White space around a token. -/
def isBlank (c : Char) : Bool := c == ' ' || c == '\t'

/-- A token without the white space around it. -/
def trimBlank (cs : List Char) : List Char := ((cs.dropWhile isBlank).reverse.dropWhile isBlank).reverse

/-- The parts of a text between commas. -/
def splitCommas : List Char → List (List Char)
  | [] => [[]]
  | c :: cs =>
      if c = ',' then [] :: splitCommas cs
      else match splitCommas cs with
        | part :: parts => (c :: part) :: parts
        | [] => [[c]]

/-- A register name, in either case (R107). -/
def readReg (cs : List Char) : Option RegIdx :=
  (List.finRange 16).find? fun i => regText i == (trimBlank cs).map Char.toLower

/-- Every operand, or none. -/
def readRegs : List (List Char) → Option (List RegIdx)
  | [] => some []
  | cs :: rest =>
      match readReg cs, readRegs rest with
      | some i, some is => some (i :: is)
      | _, _ => none

/-- The command with this lowercase mnemonic and these operands (R99). -/
def commandOf (mnemonic : List Char) (operands : List RegIdx) : Option Instr :=
  match mnemonic, operands with
  | ['m', 'u', 'l'], [rd, rs1, rs2] => some (.mul rd rs1 rs2)
  | ['s', 'u', 'b'], [rd, rs1, rs2] => some (.sub rd rs1 rs2)
  | ['t', 'o', 't'], [rd, rs1, rs2] => some (.tot rd rs1 rs2)
  | ['c', 'o', 'p', 'r'], [rs1, rs2] => some (.copr rs1 rs2)
  | ['m', 'i', 'n', 'v'], [rd, rs1, rs2] => some (.minv rd rs1 rs2)
  | ['m', 'e', 'x', 'p'], [rd, rs1, rs2, rs3] => some (.mexp rd rs1 rs2 rs3)
  | ['e', 'n', 'c'], [rd, rs1] => some (.enc rd rs1)
  | ['d', 'e', 'c'], [rd, rs1] => some (.dec rd rs1)
  | _, _ => none

/-- The command that a line of assembler text is, up to its comment (R99). -/
def readAsm (line : List Char) : Option Instr :=
  let code := (line.takeWhile fun c => c != ';').dropWhile isBlank
  match readRegs (splitCommas (code.dropWhile fun c => !isBlank c)) with
  | some operands => commandOf ((code.takeWhile fun c => !isBlank c).map Char.toLower) operands
  | none => none

end Sys2Proof.Machine
end

