-- ==== Sys2Proof/Machine/HostOps.lean ====
section
/-! DEFINITION. The host pseudo-operations of R101 to R106, as the host events they expand into. They
are no commands of the block. -/

namespace Sys2Proof.Machine

/-- What `ldx` and `stx` can name: r0 to r15, kp, kq, ke (R103, R107). -/
inductive RegName where
  | data (i : RegIdx)
  | key (k : KeyReg)
deriving DecidableEq, Repr

/-- `slot(X)` (R103). -/
def slotOf : RegName → Nat
  | .data i => dataSlot i
  | .key k => keySlot k

/-- The value of a named register (R13). -/
def State.named (s : State) : RegName → Nat
  | .data i => s.reg i
  | .key k => s.key k

/-- `X <- v` for a named register (R13). -/
def State.setNamed (x : RegName) (v : Nat) (s : State) : State :=
  match x with
  | .data i => s.setReg i v
  | .key k => s.setKey k v

/-- `wr OFF, V` (R102). -/
def opWr (p : Params) (off : Nat) (v : Word) : HostEvent := .write (p.base + off) 4 v

/-- `rd OFF` (R102). -/
def opRd (p : Params) (off : Nat) : HostEvent := .read (p.base + off) 4

/-- `ldx X, V` (R103): the NW words of V, in ascending order. -/
def opLdx (p : Params) (x : RegName) (v : Nat) : List HostEvent :=
  (List.range p.NW).map fun j => opWr p (slotOf x + 4 * j) (wordOf v j)

/-- `stx X` (R103): the reads of the NW words, in ascending order. -/
def opStx (p : Params) (x : RegName) : List HostEvent :=
  (List.range p.NW).map fun j => opRd p (slotOf x + 4 * j)

/-- What `stx` makes of the words it read: the sum of `word_j * 2^(32*j)` (R103). -/
def assembleWords : List Word → Nat
  | [] => 0
  | w :: ws => w.toNat + 2 ^ 32 * assembleWords ws

/-- `cmd <command>` (R104). -/
def opCmd (p : Params) (i : Instr) : HostEvent := opWr p 0x010 (encode i)

/-- `cmdw V` (R104). -/
def opCmdw (p : Params) (v : Word) : HostEvent := opWr p 0x010 v

/-- `ack` (R106): clears DONE. -/
def opAck (p : Params) : HostEvent := opWr p 0x00C 0x00000002

/-- `lock` (R106): sets KLOCK and keeps IE, whose value the program knows. -/
def opLock (p : Params) (ie : Bool) : HostEvent := opWr p 0x008 (0x00000002 ||| (BitVec.ofBool ie).setWidth 32)

/-- An event that the host sends without waiting: it reaches the port while a running command runs. -/
def atOnce (e : HostEvent) : Arrival := { afterCompletion := false, event := e }

/-- `wait` (R105): the last STATUS read of its loop, which sees BUSY = 0. The reads before it change
nothing (R69; log 22). -/
def opWait (p : Params) : Arrival := { afterCompletion := true, event := opRd p 0x00C }

end Sys2Proof.Machine
end

