-- ==== Sys2Proof/Safety.lean ====
section
/-! DEFINITION. What the statements call a good state, the end of a run, and the host events that are
accesses of this block. -/

namespace Sys2Proof.Machine

/-- Every data and key register holds a number below 2^W (R10, R21, R24). -/
def State.InRange (s : State) : Prop :=
  (∀ i : RegIdx, s.reg i < 2 ^ s.params.W) ∧ ∀ k : KeyReg, s.key k < 2 ^ s.params.W

/-- A running command is the one the CMD readback names, on the operands that the registers still hold
(R43, R47, R124, R225). -/
def State.RunsItsCommand (s : State) : Prop :=
  ∀ r, s.inflight = some r → legal s.cmd = true ∧ r = snapshot s.cmd s

/-- While a command runs, DONE, ERRCODE and ESTAGE are clear (R37, R39, R40). -/
def State.ClearWhileBusy (s : State) : Prop :=
  s.busy = true → s.done = false ∧ s.errcode = .ok ∧ s.estage = .noStage

/-- The stages that a code is reported with (R201, R202). -/
def ErrCode.stages : ErrCode → List Stage
  | .ok => [.noStage]
  | .badarg => [.noStage, .modulus, .totient]
  | .opfail => [.noStage, .exponent]
  | .overflow => [.noStage, .modulus]
  | .illegal => [.noStage]

/-- The invariant of the machine. -/
structure Inv (s : State) : Prop where
  /-- The parameters are those R9 allows. -/
  params : s.params.wf
  inRange : s.InRange
  running : s.RunsItsCommand
  clear : s.ClearWhileBusy
  /-- ESTAGE is a stage of ERRCODE (R201). -/
  stage : s.estage ∈ s.errcode.stages

/-- The destination a command names: COPR has none (R93, R160). -/
def destOf : Instr → Option RegIdx
  | .mul rd _ _ => some rd
  | .sub rd _ _ => some rd
  | .tot rd _ _ => some rd
  | .copr _ _ => none
  | .minv rd _ _ => some rd
  | .mexp rd _ _ _ => some rd
  | .enc rd _ => some rd
  | .dec rd _ => some rd

/-- A run has ended: no host event is left, and BUSY = 0 (R233). -/
def State.RunEnded (s : State) : Prop := s.arrivals = [] ∧ s.busy = false

/-- The event is an access of this block, or a reset. -/
def HostEvent.selects (p : Params) : HostEvent → Bool
  | .read addr _ => inWindow p addr
  | .write addr _ _ => inWindow p addr
  | .reset => true

/-- Every event to come is an access of this block, or a reset. -/
def State.AllSelect (s : State) : Prop := ∀ a ∈ s.arrivals, a.event.selects s.params = true

end Sys2Proof.Machine
end

