-- ==== Sys2Proof/Certificates/Slice0/Obligations.lean ====
section
/-! DEFINITION. The statements for the provers. Each holds for every value of the parameters, unless it
names one. -/

namespace Sys2Proof.Claims

open Sys2Proof.Machine

/-- The state after a command that succeeds with value v for its destination: R126, with everything
else as before. -/
def succeeded (rd : RegIdx) (v : Nat) (s : State) : State :=
  { s with regs := s.regs.set rd v, errcode := .ok, estage := .noStage, done := true, inflight := none }

/-- The state after a command that writes no register: R126, with everything else as before. -/
def reported (code : ErrCode) (stage : Stage) (s : State) : State :=
  { s with errcode := code, estage := stage, done := true, inflight := none }

/-- The codes a command can report, ILLEGAL apart (R201). -/
def codesOf : Instr → List ErrCode
  | .mul _ _ _ => [.ok, .badarg, .overflow]
  | .sub _ _ _ => [.ok, .badarg]
  | .tot _ _ _ => [.ok, .badarg, .overflow]
  | .copr _ _ => [.ok, .opfail]
  | .minv _ _ _ => [.ok, .badarg, .opfail]
  | .mexp _ _ _ _ => [.ok, .badarg]
  | .enc _ _ => [.ok, .badarg, .opfail, .overflow]
  | .dec _ _ => [.ok, .badarg, .opfail, .overflow]

/-- ENC and DEC, the composite commands (R202). -/
def isComposite : Instr → Bool
  | .enc _ _ => true
  | .dec _ _ => true
  | _ => false

/-- The next host event of s is e, and it is performed before any completion: no command runs, or e is
not ordered after the running command's completion (R72, R228; log 4). -/
def NextIs (s : State) (e : HostEvent) (rest : List Arrival) : Prop :=
  ∃ after, s.arrivals = { afterCompletion := after, event := e } :: rest ∧ (s.busy = true → after = false)

/-- The completion is the next move of s: a command runs, and no host event is left or the next one is
ordered after the completion (R129, R228; log 4). -/
def CompletesNext (s : State) : Prop :=
  s.busy = true ∧ ∀ a rest, s.arrivals = a :: rest → a.afterCompletion = true

end Sys2Proof.Claims

open Sys2Proof Sys2Proof.Machine Sys2Proof.Claims

/-! Encoding and decoding. -/

/-- The worked examples of R98, and one word of each other command from the programs P2 and P3 of
95_test_vectors.md. -/
def Obligations.DecodesKnownWords : Prop :=
  decode 0x00002131#32 = .ok (.mul 3 1 2) ∧ decode 0x00004352#32 = .ok (.sub 5 3 4) ∧
  decode 0x00001033#32 = .ok (.tot 3 0 1) ∧ decode 0x00003204#32 = .ok (.copr 2 3) ∧
  decode 0x00003245#32 = .ok (.minv 4 2 3) ∧ decode 0x00042566#32 = .ok (.mexp 6 5 2 4) ∧
  decode 0x00000017#32 = .ok (.enc 1 0) ∧ decode 0x00000128#32 = .ok (.dec 2 1)

/-- R94: a word is the command of a row exactly when (word AND mask) = match, with the operands that
the marked bits of the row's pattern name, and no two rows match the same word. -/
def Obligations.RowsDecideCommands : Prop :=
  ∀ w : Word,
    (∀ rd rs1 rs2, decode w = .ok (.mul rd rs1 rs2) ↔
      w &&& 0xFFFF000F = 0x00000001 ∧
        w.extractLsb' 4 4 = fieldOf rd ∧ w.extractLsb' 8 4 = fieldOf rs1 ∧ w.extractLsb' 12 4 = fieldOf rs2) ∧
    (∀ rd rs1 rs2, decode w = .ok (.sub rd rs1 rs2) ↔
      w &&& 0xFFFF000F = 0x00000002 ∧
        w.extractLsb' 4 4 = fieldOf rd ∧ w.extractLsb' 8 4 = fieldOf rs1 ∧ w.extractLsb' 12 4 = fieldOf rs2) ∧
    (∀ rd rs1 rs2, decode w = .ok (.tot rd rs1 rs2) ↔
      w &&& 0xFFFF000F = 0x00000003 ∧
        w.extractLsb' 4 4 = fieldOf rd ∧ w.extractLsb' 8 4 = fieldOf rs1 ∧ w.extractLsb' 12 4 = fieldOf rs2) ∧
    (∀ rs1 rs2, decode w = .ok (.copr rs1 rs2) ↔
      w &&& 0xFFFF00FF = 0x00000004 ∧
        w.extractLsb' 8 4 = fieldOf rs1 ∧ w.extractLsb' 12 4 = fieldOf rs2) ∧
    (∀ rd rs1 rs2, decode w = .ok (.minv rd rs1 rs2) ↔
      w &&& 0xFFFF000F = 0x00000005 ∧
        w.extractLsb' 4 4 = fieldOf rd ∧ w.extractLsb' 8 4 = fieldOf rs1 ∧ w.extractLsb' 12 4 = fieldOf rs2) ∧
    (∀ rd rs1 rs2 rs3, decode w = .ok (.mexp rd rs1 rs2 rs3) ↔
      w &&& 0xFFF0000F = 0x00000006 ∧
        w.extractLsb' 4 4 = fieldOf rd ∧ w.extractLsb' 8 4 = fieldOf rs1 ∧ w.extractLsb' 12 4 = fieldOf rs2 ∧
        w.extractLsb' 16 4 = fieldOf rs3) ∧
    (∀ rd rs1, decode w = .ok (.enc rd rs1) ↔
      w &&& 0xFFFFF00F = 0x00000007 ∧
        w.extractLsb' 4 4 = fieldOf rd ∧ w.extractLsb' 8 4 = fieldOf rs1) ∧
    (∀ rd rs1, decode w = .ok (.dec rd rs1) ↔
      w &&& 0xFFFFF00F = 0x00000008 ∧
        w.extractLsb' 4 4 = fieldOf rd ∧ w.extractLsb' 8 4 = fieldOf rs1) ∧
    ∀ r ∈ commandRows, ∀ r' ∈ commandRows, r.matchesWord w = true → r'.matchesWord w = true → r = r'

/-- The three ways the spec says which words are legal agree: the predicate of R95, the fields of R93
and R96, and the decoder. -/
def Obligations.LegalIffWellFormed : Prop :=
  ∀ w : Word, (legal w = true ↔ (fieldsOf w).wf = true) ∧ (legal w = true ↔ ∃ i, decode w = .ok i)

/-- Decoding the word of a command gives the command, for every operand (R97, R98). -/
def Obligations.DecodeOfEncode : Prop := ∀ i : Instr, decode (encode i) = .ok i

/-- Each legal word has one command, whose word it is: no bit is dropped (R94, R98). -/
def Obligations.EncodeOfDecode : Prop := ∀ (w : Word) (i : Instr), decode w = .ok i → encode i = w

/-- Reading the assembler text of a command gives the command (R99, R107). The spacing is the model's
choice (log 21). -/
def Obligations.AssemblerRoundTrip : Prop := ∀ i : Instr, readAsm (asmText i) = some i

/-! What a step does. -/

/-- When the completion is the next move, and INFLIGHT names the command of the CMD readback, the step
is that command's meaning, at that very state (R126; how the command is found is log 11). -/
def Obligations.StepRunsCommand : Prop :=
  ∀ (s : State) (r : InFlight) (i : Instr), CompletesNext s → s.inflight = some r →
    r.op = (fieldsOf s.cmd).op → r.rd = (fieldsOf s.cmd).rd → decode s.cmd = .ok i → step s = exec i s

/-- Otherwise the step is the next host event, and with no command and no event nothing happens (R72,
R228; the idle step is log 5). -/
def Obligations.StepTakesEvent : Prop :=
  ∀ s : State,
    (∀ e rest, NextIs s e rest → step s = State.perform e { s with arrivals := rest }) ∧
    (s.RunEnded → step s = .next s)

/-- From idle, writing the word of a command to CMD and letting it complete takes two steps: the first
takes the snapshot of the registers and the key as they are, the second is the command's meaning
(R121, R124, R126, R229), and the run has then ended (R233). -/
def Obligations.CommandRunsInTwoSteps : Prop :=
  ∀ (s : State) (i : Instr) (after : Bool), s.busy = false →
    s.arrivals = [{ afterCompletion := after, event := opCmd s.params i }] →
    ∃ t u, step s = .next t ∧ t.inflight = some (snapshot (encode i) s) ∧ t.cmd = encode i ∧
      t.regs = s.regs ∧ step t = exec i t ∧ exec i t = .next u ∧ u.RunEnded

/-! The commands. In each, t is the state at acceptance, which gave the snapshot, and s the state at
completion; the next state is written out whole, so that everything it does not name is unchanged. -/

/-- R140. -/
def Obligations.MulResult : Prop :=
  ∀ (s t : State) (rd rs1 rs2 : RegIdx),
    encode (.mul rd rs1 rs2) =
      (0 : BitVec 16) ++ fieldOf rs2 ++ fieldOf rs1 ++ fieldOf rd ++ (1 : BitVec 4) ∧
    (s.inflight = some (snapshot (encode (.mul rd rs1 rs2)) t) →
      exec (.mul rd rs1 rs2) s = .next (
        if t.reg rs1 = 0 ∨ t.reg rs2 = 0 then reported .badarg .noStage s
        else if 2 ^ s.params.W ≤ t.reg rs1 * t.reg rs2 then reported .overflow .noStage s
        else succeeded rd (t.reg rs1 * t.reg rs2) s))

/-- R141. -/
def Obligations.SubResult : Prop :=
  ∀ (s t : State) (rd rs1 rs2 : RegIdx),
    encode (.sub rd rs1 rs2) =
      (0 : BitVec 16) ++ fieldOf rs2 ++ fieldOf rs1 ++ fieldOf rd ++ (2 : BitVec 4) ∧
    (s.inflight = some (snapshot (encode (.sub rd rs1 rs2)) t) →
      exec (.sub rd rs1 rs2) s = .next (
        if t.reg rs1 < t.reg rs2 then reported .badarg .noStage s
        else succeeded rd (t.reg rs1 - t.reg rs2) s))

/-- R142. -/
def Obligations.TotResult : Prop :=
  ∀ (s t : State) (rd rs1 rs2 : RegIdx),
    encode (.tot rd rs1 rs2) =
      (0 : BitVec 16) ++ fieldOf rs2 ++ fieldOf rs1 ++ fieldOf rd ++ (3 : BitVec 4) ∧
    (s.inflight = some (snapshot (encode (.tot rd rs1 rs2)) t) →
      exec (.tot rd rs1 rs2) s = .next (
        if t.reg rs1 ≤ 1 ∨ t.reg rs2 ≤ 1 then reported .badarg .noStage s
        else if 2 ^ s.params.W ≤ (t.reg rs1 - 1) * (t.reg rs2 - 1) then reported .overflow .noStage s
        else succeeded rd ((t.reg rs1 - 1) * (t.reg rs2 - 1)) s))

/-- R160. -/
def Obligations.CoprResult : Prop :=
  ∀ (s t : State) (rs1 rs2 : RegIdx),
    encode (.copr rs1 rs2) =
      (0 : BitVec 16) ++ fieldOf rs2 ++ fieldOf rs1 ++ (0 : BitVec 4) ++ (4 : BitVec 4) ∧
    (s.inflight = some (snapshot (encode (.copr rs1 rs2)) t) →
      exec (.copr rs1 rs2) s = .next (
        if Nat.gcd (t.reg rs1) (t.reg rs2) = 1 then reported .ok .noStage s
        else reported .opfail .noStage s))

/-- R161. The inverse d is the one natural below the modulus that R163 asks for. -/
def Obligations.MinvResult : Prop :=
  ∀ (s t : State) (rd rs1 rs2 : RegIdx),
    encode (.minv rd rs1 rs2) =
      (0 : BitVec 16) ++ fieldOf rs2 ++ fieldOf rs1 ++ fieldOf rd ++ (5 : BitVec 4) ∧
    (s.inflight = some (snapshot (encode (.minv rd rs1 rs2)) t) →
      ∃ d, (t.reg rs2 ≠ 0 → Nat.gcd (t.reg rs1) (t.reg rs2) = 1 →
          d < t.reg rs2 ∧ t.reg rs1 * d % t.reg rs2 = 1 % t.reg rs2) ∧
        exec (.minv rd rs1 rs2) s = .next (
          if t.reg rs2 = 0 then reported .badarg .noStage s
          else if Nat.gcd (t.reg rs1) (t.reg rs2) ≠ 1 then reported .opfail .noStage s
          else succeeded rd d s))

/-- R180. -/
def Obligations.MexpResult : Prop :=
  ∀ (s t : State) (rd rs1 rs2 rs3 : RegIdx),
    encode (.mexp rd rs1 rs2 rs3) =
      (0 : BitVec 12) ++ fieldOf rs3 ++ fieldOf rs2 ++ fieldOf rs1 ++ fieldOf rd ++ (6 : BitVec 4) ∧
    (s.inflight = some (snapshot (encode (.mexp rd rs1 rs2 rs3)) t) →
      exec (.mexp rd rs1 rs2 rs3) s = .next (
        if t.reg rs3 = 0 then reported .badarg .noStage s
        else succeeded rd (t.reg rs1 ^ t.reg rs2 % t.reg rs3) s))

/-- R181. -/
def Obligations.EncResult : Prop :=
  ∀ (s t : State) (rd rs1 : RegIdx),
    encode (.enc rd rs1) = (0 : BitVec 20) ++ fieldOf rs1 ++ fieldOf rd ++ (7 : BitVec 4) ∧
    (s.inflight = some (snapshot (encode (.enc rd rs1)) t) →
      exec (.enc rd rs1) s = .next (
        if t.keyP = 0 ∨ t.keyQ = 0 then reported .badarg .modulus s
        else if 2 ^ s.params.W ≤ t.keyP * t.keyQ then reported .overflow .modulus s
        else if t.keyP = 1 ∨ t.keyQ = 1 then reported .badarg .totient s
        else if Nat.gcd t.keyE ((t.keyP - 1) * (t.keyQ - 1)) ≠ 1 then reported .opfail .exponent s
        else succeeded rd (t.reg rs1 ^ t.keyE % (t.keyP * t.keyQ)) s))

/-- R182. The private exponent d is the inverse of KEY_E modulo the totient (R163). -/
def Obligations.DecResult : Prop :=
  ∀ (s t : State) (rd rs1 : RegIdx),
    encode (.dec rd rs1) = (0 : BitVec 20) ++ fieldOf rs1 ++ fieldOf rd ++ (8 : BitVec 4) ∧
    (s.inflight = some (snapshot (encode (.dec rd rs1)) t) →
      ∃ d, ((t.keyP - 1) * (t.keyQ - 1) ≠ 0 → Nat.gcd t.keyE ((t.keyP - 1) * (t.keyQ - 1)) = 1 →
          d < (t.keyP - 1) * (t.keyQ - 1) ∧
          t.keyE * d % ((t.keyP - 1) * (t.keyQ - 1)) = 1 % ((t.keyP - 1) * (t.keyQ - 1))) ∧
        exec (.dec rd rs1) s = .next (
          if t.keyP = 0 ∨ t.keyQ = 0 then reported .badarg .modulus s
          else if 2 ^ s.params.W ≤ t.keyP * t.keyQ then reported .overflow .modulus s
          else if t.keyP = 1 ∨ t.keyQ = 1 then reported .badarg .totient s
          else if Nat.gcd t.keyE ((t.keyP - 1) * (t.keyQ - 1)) ≠ 1 then reported .opfail .exponent s
          else succeeded rd (t.reg rs1 ^ d % (t.keyP * t.keyQ)) s))

/-! The internal functions. -/

/-- R168 on the model's loop, which runs on bounded fuel: one turn replaces (a, b) by (b, a mod b), and
b = 0 ends it. -/
def Obligations.EuclidIterates : Prop :=
  ∀ a b : Nat, euclid a b = if b = 0 then a else euclid b (a % b)

/-- R169: the surviving value is the greatest common divisor. -/
def Obligations.EuclidIsGcd : Prop :=
  ∀ a b : Nat, euclid a b = Nat.gcd a b ∧ euclid a b = euclid b a

/-- R163, on the datapath of R165: what modinv answers is the unique inverse in [0, m), whenever there
is one. -/
def Obligations.ModinvIsTheInverse : Prop :=
  ∀ (x m : Nat) (st : Stage),
    (m = 0 → modinv x m st = .fail .badarg st) ∧
    (m ≠ 0 → Nat.gcd x m ≠ 1 → modinv x m st = .fail .opfail st) ∧
    (m ≠ 0 → Nat.gcd x m = 1 →
      ∃ d, modinv x m st = .ok d ∧ ∀ d', (d' < m ∧ x * d' % m = 1 % m) ↔ d' = d)

/-- R183, on the datapath of R184. -/
def Obligations.ModexpIsPower : Prop :=
  ∀ base k m : Nat, 1 ≤ m → modexp base k m = base ^ k % m ∧ modexp base k m < m

/-- R186: under a key of two distinct primes, with n < 2^W and e coprime to the totient, writing ENC and
then DEC of its result to CMD gives the message back, for every message below n. -/
def Obligations.DecUndoesEnc : Prop :=
  ∀ (s : State) (rm rc rd : RegIdx) (after : Bool),
    Nat.Prime s.keyP → Nat.Prime s.keyQ → s.keyP ≠ s.keyQ → s.keyP * s.keyQ < 2 ^ s.params.W →
    Nat.gcd s.keyE ((s.keyP - 1) * (s.keyQ - 1)) = 1 → s.reg rm < s.keyP * s.keyQ →
    s.busy = false →
    s.arrivals = [{ afterCompletion := after, event := opCmd s.params (.enc rc rm) },
      { afterCompletion := true, event := opCmd s.params (.dec rd rc) }] →
    ∃ t, Sys2Proof.core.run 4 s = .next t ∧ t.RunEnded ∧ t.errcode = .ok ∧ t.reg rd = s.reg rm

/-! Rules over all commands. -/

/-- The frame of every command (R126, R127): a command that completes changes no register but its
destination, and none when it fails; never a key register, CTRL, ACCERR or the CMD readback; and it
ends with DONE = 1 and BUSY = 0. -/
def Obligations.CommandFrame : Prop :=
  ∀ (i : Instr) (s t : State), exec i s = .next t →
    (∀ j, destOf i ≠ some j → t.reg j = s.reg j) ∧ (t.errcode ≠ .ok → t.regs = s.regs) ∧
    (∀ k, t.key k = s.key k) ∧ t.ie = s.ie ∧ t.klock = s.klock ∧ t.accerr = s.accerr ∧ t.cmd = s.cmd ∧
    t.params = s.params ∧ t.arrivals = s.arrivals ∧ t.reply = s.reply ∧ t.draws = s.draws ∧
    t.done = true ∧ t.busy = false ∧ t.irq = s.ie

/-- R201 and R202: which codes each command can report, and that only ENC and DEC report a stage, which
is one the code can come from. -/
def Obligations.ReportedCodes : Prop :=
  ∀ (i : Instr) (s t : State), exec i s = .next t →
    t.errcode ∈ codesOf i ∧ t.estage ∈ t.errcode.stages ∧ (isComposite i = false → t.estage = .noStage)

/-- R128: two commands with the same opcode and equal snapshots have the same outcome, under one W,
whatever else differs: they report the same, and on success write the same value. -/
def Obligations.EqualSnapshotsEqualOutcomes : Prop :=
  ∀ (i i' : Instr) (s s' t t' : State), i.fields.op = i'.fields.op → s.inflight = s'.inflight →
    s.params.W = s'.params.W → exec i s = .next t → exec i' s' = .next t' →
    t.errcode = t'.errcode ∧ t.estage = t'.estage ∧
    (t.errcode = .ok → ∀ rd rd', destOf i = some rd → destOf i' = some rd' → t.reg rd = t'.reg rd')

/-- R182: under one key, ENC and DEC fail alike, whatever their operands. -/
def Obligations.EncAndDecFailAlike : Prop :=
  ∀ (W msg ct p q e : Nat) (code : ErrCode) (st : Stage),
    fEnc W msg p q e = .fail code st ↔ fDec W ct p q e = .fail code st

/-! Offering a command. -/

/-- R121 and R124: a legal word written to CMD while BUSY = 0 is accepted, with the snapshot of the
registers that its fields name and of the key. -/
def Obligations.LegalWriteIsAccepted : Prop :=
  ∀ (s : State) (w : Word) (rest : List Arrival), s.busy = false → legal w = true →
    NextIs s (.write (s.params.base + 0x010) 4 w) rest →
    step s = .next { s with
      arrivals := rest, reply := some .done, cmd := w, done := false, errcode := .ok, estage := .noStage,
      inflight := some {
        op := w.extractLsb' 0 4, rd := w.extractLsb' 4 4,
        a := s.reg (w.extractLsb' 8 4).toFin, b := s.reg (w.extractLsb' 12 4).toFin,
        c := s.reg (w.extractLsb' 16 4).toFin, kp := s.keyP, kq := s.keyQ, ke := s.keyE } }

/-- R122: an illegal word written to CMD while BUSY = 0 completes at once with ILLEGAL. -/
def Obligations.IllegalWriteCompletes : Prop :=
  ∀ (s : State) (w : Word) (rest : List Arrival), s.busy = false → legal w = false →
    NextIs s (.write (s.params.base + 0x010) 4 w) rest →
    step s = .next { s with
      arrivals := rest, reply := some .done, cmd := w, errcode := .illegal, estage := .noStage, done := true }

/-- R123 and R225: while BUSY = 1, a write to CMD or to a backed word of a data or key register changes
nothing but ACCERR, which it sets. -/
def Obligations.BusyWritesAreRefused : Prop :=
  ∀ (s : State) (off : Nat) (v : Word) (rest : List Arrival), s.busy = true →
    (off = 0x010 ∨
      (∃ (i : RegIdx) (j : Nat), j < s.params.NW ∧ j < 128 ∧ off = 0x1000 + 0x200 * i.val + 4 * j) ∨
      ∃ j, j < s.params.NW ∧ j < 128 ∧
        (off = 0x3000 + 4 * j ∨ off = 0x3200 + 4 * j ∨ off = 0x3400 + 4 * j)) →
    NextIs s (.write (s.params.base + off) 4 v) rest →
    step s = .next { s with arrivals := rest, reply := some .done, accerr := true }

/-- R77, R225 and R47: no host event but a reset touches the running command, its operands or its
result fields. -/
def Obligations.HostCannotTouchRunningCommand : Prop :=
  ∀ (s t : State) (e : HostEvent), s.busy = true → e ≠ .reset → s.perform e = .next t →
    t.inflight = s.inflight ∧ t.regs = s.regs ∧ (∀ k, t.key k = s.key k) ∧ t.cmd = s.cmd ∧
    t.errcode = s.errcode ∧ t.estage = s.estage

/-! The register window. -/

/-- R62: what each offset that is a multiple of 4 selects. -/
def Obligations.WindowLayout : Prop :=
  targetOf 0x0000 = .id ∧ targetOf 0x0004 = .cfg ∧ targetOf 0x0008 = .ctrl ∧ targetOf 0x000C = .status ∧
  targetOf 0x0010 = .cmd ∧
  (∀ off, 0x0014 ≤ off → off ≤ 0x0FFF → targetOf off = .reserved) ∧
  (∀ (i : RegIdx) (j : Nat), j < 128 → targetOf (0x1000 + 0x200 * i.val + 4 * j) = .data i j) ∧
  (∀ j, j < 128 → targetOf (0x3000 + 4 * j) = .key .p j ∧ targetOf (0x3200 + 4 * j) = .key .q j ∧
    targetOf (0x3400 + 4 * j) = .key .e j) ∧
  ∀ off, 0x3600 ≤ off → off ≤ 0x3FFF → targetOf off = .reserved

/-- R61: any access that is not of 32 bits at a multiple of 4 gets the bus error and changes nothing. -/
def Obligations.OtherAccessesAreRefused : Prop :=
  ∀ (s : State) (off size : Nat) (v : Word), off < 0x4000 → (size ≠ 4 ∨ off % 4 ≠ 0) →
    s.perform (.read (s.params.base + off) size) =
      .next { s with reply := some (.busError s.params.busError) } ∧
    s.perform (.write (s.params.base + off) size v) =
      .next { s with reply := some (.busError s.params.busError) }

/-- R69: a read changes no state of the block. (`reply` and `draws` are the model's own fields.) -/
def Obligations.ReadsChangeNothing : Prop :=
  ∀ (s t : State) (addr size : Nat), s.perform (.read addr size) = .next t →
    t = { s with reply := t.reply, draws := t.draws }

/-- R63 on numbers: writing word j makes it v, keeps every other word, and keeps a register of n words
one of n words. -/
def Obligations.WordsOfARegister : Prop :=
  ∀ (x j : Nat) (v : Word),
    wordOf (replaceWord x j v) j = v ∧ (∀ k, k ≠ j → wordOf (replaceWord x j v) k = wordOf x k) ∧
    ∀ n, j < n → x < 2 ^ (32 * n) → replaceWord x j v < 2 ^ (32 * n)

/-- R63 and R70: while BUSY = 0, a host write to a backed word of a data register stores it in that word
of that register, and a host read returns the stored word. -/
def Obligations.DataWordAccess : Prop :=
  ∀ (s : State) (i : RegIdx) (j : Nat) (v : Word), s.busy = false → j < s.params.NW → j < 128 →
    s.perform (.write (s.params.base + (0x1000 + 0x200 * i.val + 4 * j)) 4 v) =
      .next { s with regs := s.regs.set i (replaceWord (s.reg i) j v), reply := some .done } ∧
    s.perform (.read (s.params.base + (0x1000 + 0x200 * i.val + 4 * j)) 4) =
      .next { s with reply := some (.data (wordOf (s.reg i) j)) }

/-- R25, R33 and R63 for the key registers: as for a data register, but while KLOCK = 1 a write is
refused with ACCERR. -/
def Obligations.KeyWordAccess : Prop :=
  ∀ (s : State) (k : KeyReg) (j : Nat) (v : Word), s.busy = false → j < s.params.NW → j < 128 →
    (s.klock = false → s.perform (.write (s.params.base + (keySlot k + 4 * j)) 4 v) =
      .next { s.setKey k (replaceWord (s.key k) j v) with reply := some .done }) ∧
    (s.klock = true → s.perform (.write (s.params.base + (keySlot k + 4 * j)) 4 v) =
      .next { s with accerr := true, reply := some .done }) ∧
    s.perform (.read (s.params.base + (keySlot k + 4 * j)) 4) =
      .next { s with reply := some (.data (wordOf (s.key k) j)) }

/-- R64 and R66: words from NW on and reserved offsets read as zero and ignore writes, without ACCERR,
whatever BUSY and KLOCK are. -/
def Obligations.UnbackedWordsAreZero : Prop :=
  ∀ (s : State) (off : Nat) (v : Word), off < 0x4000 → off % 4 = 0 →
    (targetOf off = .reserved ∨ (∃ i j, targetOf off = .data i j ∧ s.params.NW ≤ j) ∨
      ∃ k j, targetOf off = .key k j ∧ s.params.NW ≤ j) →
    s.perform (.read (s.params.base + off) 4) = .next { s with reply := some (.data 0) } ∧
    s.perform (.write (s.params.base + off) 4 v) = .next { s with reply := some .done }

/-- R224: while BUSY = 1, a read of a backed word of a data or key register returns the next free value,
whatever the register, and changes nothing else. -/
def Obligations.BusyReadsAreFree : Prop :=
  ∀ (s : State) (j : Nat), s.busy = true → j < s.params.NW → j < 128 →
    (∀ i : RegIdx, s.perform (.read (s.params.base + (0x1000 + 0x200 * i.val + 4 * j)) 4) =
      .next { s with reply := some (.data (Config.busyRead s.draws)), draws := s.draws + 1 }) ∧
    ∀ k : KeyReg, s.perform (.read (s.params.base + (keySlot k + 4 * j)) 4) =
      .next { s with reply := some (.data (Config.busyRead s.draws)), draws := s.draws + 1 }

/-- R28 to R30, R34, R41 and R43: what the five CSRs read as, field by field, whatever BUSY is, with the
numbers of the result codes (R200) and of the stages (R202). -/
def Obligations.CsrReads : Prop :=
  ∀ s : State, s.params.wf →
    s.perform (.read s.params.base 4) = .next { s with reply := some (.data 0x5253414D) } ∧
    s.perform (.read (s.params.base + 0x010) 4) = .next { s with reply := some (.data s.cmd) } ∧
    (∃ w : Word, s.perform (.read (s.params.base + 0x004) 4) = .next { s with reply := some (.data w) } ∧
      (w.extractLsb' 0 16).toNat = s.params.W ∧ w.extractLsb' 16 8 = 16 ∧ w.extractLsb' 24 8 = 1) ∧
    (∃ w : Word, s.perform (.read (s.params.base + 0x008) 4) = .next { s with reply := some (.data w) } ∧
      w.getLsbD 0 = s.ie ∧ w.getLsbD 1 = s.klock ∧ w.extractLsb' 2 30 = 0) ∧
    ∃ w : Word, s.perform (.read (s.params.base + 0x00C) 4) = .next { s with reply := some (.data w) } ∧
      w.getLsbD 0 = s.busy ∧ w.getLsbD 1 = s.done ∧ w.getLsbD 2 = s.accerr ∧
      w.getLsbD 3 = (s.ie && s.done) ∧ w.extractLsb' 4 4 = 0 ∧ w.extractLsb' 16 16 = 0 ∧
      w.extractLsb' 8 4 = (match s.errcode with
        | .ok => 0 | .badarg => 1 | .opfail => 2 | .overflow => 3 | .illegal => 4) ∧
      w.extractLsb' 12 4 = (match s.estage with
        | .noStage => 0 | .modulus => 1 | .totient => 2 | .exponent => 3)

/-- R31 and R35, and that ID and CFG ignore writes (R28, R29), whatever BUSY is. -/
def Obligations.CsrWrites : Prop :=
  ∀ (s : State) (v : Word),
    s.perform (.write (s.params.base + 0x008) 4 v) =
      .next { s with ie := v.getLsbD 0, klock := (if v.getLsbD 1 then true else s.klock),
                     reply := some .done } ∧
    s.perform (.write (s.params.base + 0x00C) 4 v) =
      .next { s with done := (if v.getLsbD 1 then false else s.done),
                     accerr := (if v.getLsbD 2 then false else s.accerr), reply := some .done } ∧
    s.perform (.write s.params.base 4 v) = .next { s with reply := some .done } ∧
    s.perform (.write (s.params.base + 0x004) 4 v) = .next { s with reply := some .done }

/-- R103: from idle, the reads of `stx X`, for every data and key register X, answer words that, put
together, are the value of X; the j-th answer stands after j + 1 steps, and no read changes the block. -/
def Obligations.StxReadsTheValue : Prop :=
  ∀ (s : State) (x : RegName), s.params.wf → s.busy = false → s.named x < 2 ^ s.params.W →
    s.arrivals = (opStx s.params x).map atOnce →
    ∃ ws : List Word, ws.length = s.params.NW ∧ assembleWords ws = s.named x ∧
      ∀ (j : Nat) (h : j < ws.length), Sys2Proof.core.run (j + 1) s =
        .next { s with arrivals := s.arrivals.drop (j + 1), reply := some (.data ws[j]) }

/-- R103 and R33: from idle, the writes of `ldx X, V` load V into X, whatever it held, for every data
register and, while KLOCK = 0, every key register, and change nothing else of the block; of a key
register while KLOCK = 1 each of them is refused, and only ACCERR changes. -/
def Obligations.LdxLoadsTheValue : Prop :=
  ∀ (s : State) (x : RegName) (v : Nat), s.params.wf → s.busy = false → s.named x < 2 ^ s.params.W →
    v < 2 ^ s.params.W → s.arrivals = (opLdx s.params x v).map atOnce →
    ((∀ k, x = .key k → s.klock = false) →
      Sys2Proof.core.run s.params.NW s =
        .next { s.setNamed x v with arrivals := [], reply := some .done }) ∧
    ∀ k, x = .key k → s.klock = true →
      Sys2Proof.core.run s.params.NW s =
        .next { s with accerr := true, arrivals := [], reply := some .done }

/-! Reset, the key lock and the status bits. -/

/-- R51: what every piece of state is after reset, for every value of the parameters. (That INFLIGHT
holds no values, rather than unspecified ones that no rule reads, is log 10.) -/
def Obligations.ResetState : Prop :=
  ∀ p : Params,
    idWord = 0x5253414D ∧ cfgWord p = (0x01 : BitVec 8) ++ (0x10 : BitVec 8) ++ BitVec.ofNat 16 p.W ∧
    (∀ i, (State.resetOf p).reg i = 0) ∧ (∀ k, (State.resetOf p).key k = 0) ∧
    (State.resetOf p).ctrlWord = 0 ∧ (State.resetOf p).statusWord = 0 ∧ (State.resetOf p).cmd = 0 ∧
    (State.resetOf p).inflight = none ∧ (State.resetOf p).irq = false ∧ (State.resetOf p).params = p

/-- R220: the reset input, at any time, gives the state of R51, and abandons a running command, which
writes nothing. (The events still to come and the count of free values are the model's own, log 15.) -/
def Obligations.ResetInput : Prop :=
  ∀ (s : State) (rest : List Arrival), NextIs s .reset rest →
    step s = .next { State.resetOf s.params with arrivals := rest, draws := s.draws }

/-- R222: the reset input leaves the key (0, 0, 0) and every data register 0, whatever they were; ENC or
DEC issued after reset, before the key is loaded, completes with BADARG at stage 1. -/
def Obligations.NoKeyAfterReset : Prop :=
  (∀ s t : State, s.perform .reset = .next t → (∀ k, t.key k = 0) ∧ ∀ j, t.reg j = 0) ∧
  ∀ (p : Params) (i : Instr) (after : Bool), isComposite i = true →
    ∃ t, Sys2Proof.core.run 2
        { State.resetOf p with arrivals := [{ afterCompletion := after, event := opCmd p i }] } = .next t ∧
      t.RunEnded ∧ t.errcode = .badarg ∧ t.estage = .modulus ∧ ∀ j, t.reg j = 0

/-- R27 and R33: once KLOCK is 1, no step but a reset clears it or changes a key register. -/
def Obligations.KeyLockHolds : Prop :=
  ∀ s t : State, s.klock = true → step s = .next t → (∀ rest, ¬ NextIs s .reset rest) →
    t.klock = true ∧ ∀ k, t.key k = s.key k

/-- R38 and R204: the only causes of ACCERR. A step sets it only by a host write to CMD, a data word or
a key word while BUSY = 1, or to a key word while KLOCK = 1. -/
def Obligations.AccErrCauses : Prop :=
  ∀ s t : State, s.accerr = false → step s = .next t → t.accerr = true →
    ∃ off v rest, NextIs s (.write (s.params.base + off) 4 v) rest ∧
      ((s.busy = true ∧ (targetOf off = .cmd ∨ (∃ i j, targetOf off = .data i j ∧ j < s.params.NW) ∨
          ∃ k j, targetOf off = .key k j ∧ j < s.params.NW)) ∨
        (s.klock = true ∧ ∃ k j, targetOf off = .key k j ∧ j < s.params.NW))

/-- R36: BUSY is set only by the acceptance of a legal command, and cleared only by that command's
completion or by reset. -/
def Obligations.BusyChanges : Prop :=
  ∀ s t : State, step s = .next t →
    (s.busy = false → t.busy = true →
      ∃ w rest, NextIs s (.write (s.params.base + 0x010) 4 w) rest ∧ legal w = true ∧ t.cmd = w) ∧
    (s.busy = true → t.busy = false → CompletesNext s ∨ ∃ rest, NextIs s .reset rest)

/-- R37: what sets DONE and what clears it. -/
def Obligations.DoneChanges : Prop :=
  ∀ s t : State, step s = .next t →
    (s.done = false → t.done = true →
      CompletesNext s ∨
      ∃ w rest, NextIs s (.write (s.params.base + 0x010) 4 w) rest ∧ s.busy = false ∧ legal w = false) ∧
    (s.done = true → t.done = false →
      (∃ w rest, NextIs s (.write (s.params.base + 0x010) 4 w) rest ∧ s.busy = false ∧ legal w = true) ∨
      (∃ v rest, NextIs s (.write (s.params.base + 0x00C) 4 v) rest ∧ v.getLsbD 1 = true) ∨
      ∃ rest, NextIs s .reset rest)

/-- R46 and R206: irq is the level IE AND DONE, STATUS bit 3 reads it, and it is driven on input
IRQ_LINE of the platform's controller and on no other. -/
def Obligations.IrqLevel : Prop :=
  ∀ (s : State) (line : Nat),
    s.irq = (s.ie && s.done) ∧ s.statusWord.getLsbD 3 = s.irq ∧
    (s.drives line = true ↔ line = s.params.irqLine ∧ s.ie = true ∧ s.done = true)

/-! The whole machine. -/

/-- The invariant holds after reset, for every value of the parameters that R9 allows, and so in
State.reset, whose parameters are the model's choice (log 1). -/
def Obligations.ResetMeetsInv : Prop := (∀ p : Params, p.wf → Inv (State.resetOf p)) ∧ Inv State.reset

/-- Every step keeps the invariant: registers and keys stay below 2^W (R10), a running command is the
one the CMD readback names on the operands the registers hold (R43, R47, R225), DONE, ERRCODE and
ESTAGE are clear while it runs (R37, R39, R40), and ESTAGE is a stage of ERRCODE (R201). -/
def Obligations.StepKeepsInv : Prop := ∀ s t : State, Inv s → step s = .next t → Inv t

/-- No step changes a parameter, and a step consumes at most the first host event (R20, R72). -/
def Obligations.StepConsumesInOrder : Prop :=
  ∀ s t : State, step s = .next t →
    t.params = s.params ∧ (t.arrivals = s.arrivals ∨ ∃ a, s.arrivals = a :: t.arrivals)

/-- A state that meets the invariant, whose host events are all accesses of this block or resets, does
not stop: it takes a step to another such state. The block never halts (R129, R210). -/
def Obligations.NeverStops : Prop :=
  ∀ s : State, Inv s → s.AllSelect → ∃ t, step s = .next t ∧ Inv t ∧ t.AllSelect

/-- R129: an accepted command completes, whatever the host does short of a reset, and needs no host
event: after at most as many steps as there are events to come, the next step is its completion, with
its operands and its registers as they were. The fairness of R129 is the model's form of log 4. -/
def Obligations.CompletionComes : Prop :=
  ∀ s : State, Inv s → s.AllSelect → s.busy = true → (∀ a ∈ s.arrivals, a.event ≠ .reset) →
    ∃ k u i t, k ≤ s.arrivals.length ∧ Sys2Proof.core.run k s = .next u ∧ CompletesNext u ∧
      u.inflight = s.inflight ∧ u.regs = s.regs ∧ u.cmd = s.cmd ∧ decode s.cmd = .ok i ∧
      step u = exec i u ∧ exec i u = .next t ∧ t.busy = false ∧ t.done = true

/-- R233: every run of finitely many host events ends, with BUSY = 0, each event adding at most one
completion. That the completion is taken when no event is left is log 4. -/
def Obligations.RunsEnd : Prop :=
  ∀ s : State, Inv s → s.AllSelect →
    ∃ k t, k ≤ 2 * s.arrivals.length + 1 ∧ Sys2Proof.core.run k s = .next t ∧ t.RunEnded

/-- The model's own stops: an address outside the window is no access of this block (R60, R67; log 8),
and a meaning has no effect to give where no command runs (R126; log 12). -/
def Obligations.ModelStops : Prop :=
  (∀ (s : State) (addr size : Nat) (v : Word), addr < s.params.base ∨ s.params.base + 0x4000 ≤ addr →
    s.perform (.read addr size) = .fault (.outsideWindow addr) ∧
    s.perform (.write addr size v) = .fault (.outsideWindow addr)) ∧
  ∀ (i : Instr) (s : State), s.busy = false → exec i s = .fault .notRunning
end

