-- ==== Sys2Proof/Laws/Decode.lean ====
section
/-! SUPPORT. The fields of a word laid out from fields are those fields, and a word is laid out from its
fields (R91, R98). -/

namespace Sys2Proof

theorem fieldsOf_toWord (f : Fields) : fieldsOf f.toWord = f := by
  obtain ⟨op, rd, rs1, rs2, rs3, rsv⟩ := f
  simp only [Fields.toWord, fieldsOf, Fields.mk.injEq]
  refine ⟨?_, ?_, ?_, ?_, ?_, ?_⟩ <;>
  · apply BitVec.eq_of_getLsbD_eq
    intro i hi
    interval_cases i <;> simp

theorem toWord_fieldsOf (w : Word) : (fieldsOf w).toWord = w := by
  apply BitVec.eq_of_getLsbD_eq
  intro i hi
  interval_cases i <;> simp [Fields.toWord, fieldsOf]

theorem fieldsOf_encode (i : Instr) : fieldsOf (encode i) = i.fields := fieldsOf_toWord _

@[simp] theorem regOf_fieldOf (i : RegIdx) : regOf (fieldOf i) = i := rfl

@[simp] theorem fieldOf_regOf (f : BitVec 4) : fieldOf (regOf f) = f := rfl

/-- The lanes of a word make up the word (R65). -/
theorem decodeBytes_lanesOf (w : Word) : decodeBytes (lanesOf w) = decode w := by
  have h : wordOfLanes (byteLane w 0) (byteLane w 1) (byteLane w 2) (byteLane w 3) = w := by
    apply BitVec.eq_of_getLsbD_eq (w := 8 + 8 + 8 + 8)
    intro i hi
    simp only [wordOfLanes, byteLane, BitVec.getLsbD_append, BitVec.getLsbD_extractLsb']
    interval_cases i <;> simp
  simp only [lanesOf, decodeBytes, h]

end Sys2Proof
end

