-- ==== Sys2Proof/Laws/State.lean ====
section
/-! SUPPORT. One lemma per field per update of State, all by rfl, so that no proof unfolds a record
update; and the accessors over them. -/

namespace Sys2Proof.Machine

variable (s : State)

/-! setReg -/

@[simp] theorem State.params_setReg (i : RegIdx) (v : Nat) : (s.setReg i v).params = s.params := rfl
@[simp] theorem State.regs_setReg (i : RegIdx) (v : Nat) : (s.setReg i v).regs = s.regs.set i v := rfl
@[simp] theorem State.keyP_setReg (i : RegIdx) (v : Nat) : (s.setReg i v).keyP = s.keyP := rfl
@[simp] theorem State.keyQ_setReg (i : RegIdx) (v : Nat) : (s.setReg i v).keyQ = s.keyQ := rfl
@[simp] theorem State.keyE_setReg (i : RegIdx) (v : Nat) : (s.setReg i v).keyE = s.keyE := rfl
@[simp] theorem State.ie_setReg (i : RegIdx) (v : Nat) : (s.setReg i v).ie = s.ie := rfl
@[simp] theorem State.klock_setReg (i : RegIdx) (v : Nat) : (s.setReg i v).klock = s.klock := rfl
@[simp] theorem State.done_setReg (i : RegIdx) (v : Nat) : (s.setReg i v).done = s.done := rfl
@[simp] theorem State.accerr_setReg (i : RegIdx) (v : Nat) : (s.setReg i v).accerr = s.accerr := rfl
@[simp] theorem State.errcode_setReg (i : RegIdx) (v : Nat) : (s.setReg i v).errcode = s.errcode := rfl
@[simp] theorem State.estage_setReg (i : RegIdx) (v : Nat) : (s.setReg i v).estage = s.estage := rfl
@[simp] theorem State.cmd_setReg (i : RegIdx) (v : Nat) : (s.setReg i v).cmd = s.cmd := rfl
@[simp] theorem State.inflight_setReg (i : RegIdx) (v : Nat) : (s.setReg i v).inflight = s.inflight := rfl
@[simp] theorem State.arrivals_setReg (i : RegIdx) (v : Nat) : (s.setReg i v).arrivals = s.arrivals := rfl
@[simp] theorem State.reply_setReg (i : RegIdx) (v : Nat) : (s.setReg i v).reply = s.reply := rfl
@[simp] theorem State.draws_setReg (i : RegIdx) (v : Nat) : (s.setReg i v).draws = s.draws := rfl
@[simp] theorem State.busy_setReg (i : RegIdx) (v : Nat) : (s.setReg i v).busy = s.busy := rfl
@[simp] theorem State.key_setReg (i : RegIdx) (v : Nat) (k : KeyReg) : (s.setReg i v).key k = s.key k := by
  cases k <;> rfl

/-! refuseWrite -/

@[simp] theorem State.params_refuseWrite : s.refuseWrite.params = s.params := rfl
@[simp] theorem State.regs_refuseWrite : s.refuseWrite.regs = s.regs := rfl
@[simp] theorem State.keyP_refuseWrite : s.refuseWrite.keyP = s.keyP := rfl
@[simp] theorem State.keyQ_refuseWrite : s.refuseWrite.keyQ = s.keyQ := rfl
@[simp] theorem State.keyE_refuseWrite : s.refuseWrite.keyE = s.keyE := rfl
@[simp] theorem State.ie_refuseWrite : s.refuseWrite.ie = s.ie := rfl
@[simp] theorem State.klock_refuseWrite : s.refuseWrite.klock = s.klock := rfl
@[simp] theorem State.done_refuseWrite : s.refuseWrite.done = s.done := rfl
@[simp] theorem State.accerr_refuseWrite : s.refuseWrite.accerr = true := rfl
@[simp] theorem State.errcode_refuseWrite : s.refuseWrite.errcode = s.errcode := rfl
@[simp] theorem State.estage_refuseWrite : s.refuseWrite.estage = s.estage := rfl
@[simp] theorem State.cmd_refuseWrite : s.refuseWrite.cmd = s.cmd := rfl
@[simp] theorem State.inflight_refuseWrite : s.refuseWrite.inflight = s.inflight := rfl
@[simp] theorem State.arrivals_refuseWrite : s.refuseWrite.arrivals = s.arrivals := rfl
@[simp] theorem State.reply_refuseWrite : s.refuseWrite.reply = s.reply := rfl
@[simp] theorem State.draws_refuseWrite : s.refuseWrite.draws = s.draws := rfl
@[simp] theorem State.busy_refuseWrite : s.refuseWrite.busy = s.busy := rfl
@[simp] theorem State.reg_refuseWrite (j : RegIdx) : s.refuseWrite.reg j = s.reg j := rfl
@[simp] theorem State.key_refuseWrite (k : KeyReg) : s.refuseWrite.key k = s.key k := by
  cases k <;> rfl

/-! accept -/

@[simp] theorem State.params_accept (w : Word) : (s.accept w).params = s.params := rfl
@[simp] theorem State.regs_accept (w : Word) : (s.accept w).regs = s.regs := rfl
@[simp] theorem State.keyP_accept (w : Word) : (s.accept w).keyP = s.keyP := rfl
@[simp] theorem State.keyQ_accept (w : Word) : (s.accept w).keyQ = s.keyQ := rfl
@[simp] theorem State.keyE_accept (w : Word) : (s.accept w).keyE = s.keyE := rfl
@[simp] theorem State.ie_accept (w : Word) : (s.accept w).ie = s.ie := rfl
@[simp] theorem State.klock_accept (w : Word) : (s.accept w).klock = s.klock := rfl
@[simp] theorem State.done_accept (w : Word) : (s.accept w).done = false := rfl
@[simp] theorem State.accerr_accept (w : Word) : (s.accept w).accerr = s.accerr := rfl
@[simp] theorem State.errcode_accept (w : Word) : (s.accept w).errcode = .ok := rfl
@[simp] theorem State.estage_accept (w : Word) : (s.accept w).estage = .noStage := rfl
@[simp] theorem State.cmd_accept (w : Word) : (s.accept w).cmd = w := rfl
@[simp] theorem State.inflight_accept (w : Word) : (s.accept w).inflight = some (snapshot w s) := rfl
@[simp] theorem State.arrivals_accept (w : Word) : (s.accept w).arrivals = s.arrivals := rfl
@[simp] theorem State.reply_accept (w : Word) : (s.accept w).reply = s.reply := rfl
@[simp] theorem State.draws_accept (w : Word) : (s.accept w).draws = s.draws := rfl
@[simp] theorem State.busy_accept (w : Word) : (s.accept w).busy = true := rfl
@[simp] theorem State.reg_accept (w : Word) (j : RegIdx) : (s.accept w).reg j = s.reg j := rfl
@[simp] theorem State.key_accept (w : Word) (k : KeyReg) : (s.accept w).key k = s.key k := by
  cases k <;> rfl

/-! acceptIllegal -/

@[simp] theorem State.params_acceptIllegal (w : Word) : (s.acceptIllegal w).params = s.params := rfl
@[simp] theorem State.regs_acceptIllegal (w : Word) : (s.acceptIllegal w).regs = s.regs := rfl
@[simp] theorem State.keyP_acceptIllegal (w : Word) : (s.acceptIllegal w).keyP = s.keyP := rfl
@[simp] theorem State.keyQ_acceptIllegal (w : Word) : (s.acceptIllegal w).keyQ = s.keyQ := rfl
@[simp] theorem State.keyE_acceptIllegal (w : Word) : (s.acceptIllegal w).keyE = s.keyE := rfl
@[simp] theorem State.ie_acceptIllegal (w : Word) : (s.acceptIllegal w).ie = s.ie := rfl
@[simp] theorem State.klock_acceptIllegal (w : Word) : (s.acceptIllegal w).klock = s.klock := rfl
@[simp] theorem State.done_acceptIllegal (w : Word) : (s.acceptIllegal w).done = true := rfl
@[simp] theorem State.accerr_acceptIllegal (w : Word) : (s.acceptIllegal w).accerr = s.accerr := rfl
@[simp] theorem State.errcode_acceptIllegal (w : Word) : (s.acceptIllegal w).errcode = .illegal := rfl
@[simp] theorem State.estage_acceptIllegal (w : Word) : (s.acceptIllegal w).estage = .noStage := rfl
@[simp] theorem State.cmd_acceptIllegal (w : Word) : (s.acceptIllegal w).cmd = w := rfl
@[simp] theorem State.inflight_acceptIllegal (w : Word) : (s.acceptIllegal w).inflight = s.inflight := rfl
@[simp] theorem State.arrivals_acceptIllegal (w : Word) : (s.acceptIllegal w).arrivals = s.arrivals := rfl
@[simp] theorem State.reply_acceptIllegal (w : Word) : (s.acceptIllegal w).reply = s.reply := rfl
@[simp] theorem State.draws_acceptIllegal (w : Word) : (s.acceptIllegal w).draws = s.draws := rfl
@[simp] theorem State.busy_acceptIllegal (w : Word) : (s.acceptIllegal w).busy = s.busy := rfl
@[simp] theorem State.reg_acceptIllegal (w : Word) (j : RegIdx) : (s.acceptIllegal w).reg j = s.reg j := rfl
@[simp] theorem State.key_acceptIllegal (w : Word) (k : KeyReg) : (s.acceptIllegal w).key k = s.key k := by
  cases k <;> rfl

/-! finish -/

@[simp] theorem State.params_finish (code : ErrCode) (stage : Stage) : (s.finish code stage).params = s.params := rfl
@[simp] theorem State.regs_finish (code : ErrCode) (stage : Stage) : (s.finish code stage).regs = s.regs := rfl
@[simp] theorem State.keyP_finish (code : ErrCode) (stage : Stage) : (s.finish code stage).keyP = s.keyP := rfl
@[simp] theorem State.keyQ_finish (code : ErrCode) (stage : Stage) : (s.finish code stage).keyQ = s.keyQ := rfl
@[simp] theorem State.keyE_finish (code : ErrCode) (stage : Stage) : (s.finish code stage).keyE = s.keyE := rfl
@[simp] theorem State.ie_finish (code : ErrCode) (stage : Stage) : (s.finish code stage).ie = s.ie := rfl
@[simp] theorem State.klock_finish (code : ErrCode) (stage : Stage) : (s.finish code stage).klock = s.klock := rfl
@[simp] theorem State.done_finish (code : ErrCode) (stage : Stage) : (s.finish code stage).done = true := rfl
@[simp] theorem State.accerr_finish (code : ErrCode) (stage : Stage) : (s.finish code stage).accerr = s.accerr := rfl
@[simp] theorem State.errcode_finish (code : ErrCode) (stage : Stage) : (s.finish code stage).errcode = code := rfl
@[simp] theorem State.estage_finish (code : ErrCode) (stage : Stage) : (s.finish code stage).estage = stage := rfl
@[simp] theorem State.cmd_finish (code : ErrCode) (stage : Stage) : (s.finish code stage).cmd = s.cmd := rfl
@[simp] theorem State.inflight_finish (code : ErrCode) (stage : Stage) : (s.finish code stage).inflight = none := rfl
@[simp] theorem State.arrivals_finish (code : ErrCode) (stage : Stage) : (s.finish code stage).arrivals = s.arrivals := rfl
@[simp] theorem State.reply_finish (code : ErrCode) (stage : Stage) : (s.finish code stage).reply = s.reply := rfl
@[simp] theorem State.draws_finish (code : ErrCode) (stage : Stage) : (s.finish code stage).draws = s.draws := rfl
@[simp] theorem State.busy_finish (code : ErrCode) (stage : Stage) : (s.finish code stage).busy = false := rfl
@[simp] theorem State.reg_finish (code : ErrCode) (stage : Stage) (j : RegIdx) : (s.finish code stage).reg j = s.reg j := rfl
@[simp] theorem State.key_finish (code : ErrCode) (stage : Stage) (k : KeyReg) : (s.finish code stage).key k = s.key k := by
  cases k <;> rfl

/-! writeCtrl -/

@[simp] theorem State.params_writeCtrl (v : Word) : (s.writeCtrl v).params = s.params := rfl
@[simp] theorem State.regs_writeCtrl (v : Word) : (s.writeCtrl v).regs = s.regs := rfl
@[simp] theorem State.keyP_writeCtrl (v : Word) : (s.writeCtrl v).keyP = s.keyP := rfl
@[simp] theorem State.keyQ_writeCtrl (v : Word) : (s.writeCtrl v).keyQ = s.keyQ := rfl
@[simp] theorem State.keyE_writeCtrl (v : Word) : (s.writeCtrl v).keyE = s.keyE := rfl
@[simp] theorem State.ie_writeCtrl (v : Word) : (s.writeCtrl v).ie = v.getLsbD 0 := rfl
@[simp] theorem State.klock_writeCtrl (v : Word) : (s.writeCtrl v).klock = (s.klock || v.getLsbD 1) := rfl
@[simp] theorem State.done_writeCtrl (v : Word) : (s.writeCtrl v).done = s.done := rfl
@[simp] theorem State.accerr_writeCtrl (v : Word) : (s.writeCtrl v).accerr = s.accerr := rfl
@[simp] theorem State.errcode_writeCtrl (v : Word) : (s.writeCtrl v).errcode = s.errcode := rfl
@[simp] theorem State.estage_writeCtrl (v : Word) : (s.writeCtrl v).estage = s.estage := rfl
@[simp] theorem State.cmd_writeCtrl (v : Word) : (s.writeCtrl v).cmd = s.cmd := rfl
@[simp] theorem State.inflight_writeCtrl (v : Word) : (s.writeCtrl v).inflight = s.inflight := rfl
@[simp] theorem State.arrivals_writeCtrl (v : Word) : (s.writeCtrl v).arrivals = s.arrivals := rfl
@[simp] theorem State.reply_writeCtrl (v : Word) : (s.writeCtrl v).reply = s.reply := rfl
@[simp] theorem State.draws_writeCtrl (v : Word) : (s.writeCtrl v).draws = s.draws := rfl
@[simp] theorem State.busy_writeCtrl (v : Word) : (s.writeCtrl v).busy = s.busy := rfl
@[simp] theorem State.reg_writeCtrl (v : Word) (j : RegIdx) : (s.writeCtrl v).reg j = s.reg j := rfl
@[simp] theorem State.key_writeCtrl (v : Word) (k : KeyReg) : (s.writeCtrl v).key k = s.key k := by
  cases k <;> rfl

/-! writeStatus -/

@[simp] theorem State.params_writeStatus (v : Word) : (s.writeStatus v).params = s.params := rfl
@[simp] theorem State.regs_writeStatus (v : Word) : (s.writeStatus v).regs = s.regs := rfl
@[simp] theorem State.keyP_writeStatus (v : Word) : (s.writeStatus v).keyP = s.keyP := rfl
@[simp] theorem State.keyQ_writeStatus (v : Word) : (s.writeStatus v).keyQ = s.keyQ := rfl
@[simp] theorem State.keyE_writeStatus (v : Word) : (s.writeStatus v).keyE = s.keyE := rfl
@[simp] theorem State.ie_writeStatus (v : Word) : (s.writeStatus v).ie = s.ie := rfl
@[simp] theorem State.klock_writeStatus (v : Word) : (s.writeStatus v).klock = s.klock := rfl
@[simp] theorem State.done_writeStatus (v : Word) : (s.writeStatus v).done = (s.done && !v.getLsbD 1) := rfl
@[simp] theorem State.accerr_writeStatus (v : Word) : (s.writeStatus v).accerr = (s.accerr && !v.getLsbD 2) := rfl
@[simp] theorem State.errcode_writeStatus (v : Word) : (s.writeStatus v).errcode = s.errcode := rfl
@[simp] theorem State.estage_writeStatus (v : Word) : (s.writeStatus v).estage = s.estage := rfl
@[simp] theorem State.cmd_writeStatus (v : Word) : (s.writeStatus v).cmd = s.cmd := rfl
@[simp] theorem State.inflight_writeStatus (v : Word) : (s.writeStatus v).inflight = s.inflight := rfl
@[simp] theorem State.arrivals_writeStatus (v : Word) : (s.writeStatus v).arrivals = s.arrivals := rfl
@[simp] theorem State.reply_writeStatus (v : Word) : (s.writeStatus v).reply = s.reply := rfl
@[simp] theorem State.draws_writeStatus (v : Word) : (s.writeStatus v).draws = s.draws := rfl
@[simp] theorem State.busy_writeStatus (v : Word) : (s.writeStatus v).busy = s.busy := rfl
@[simp] theorem State.reg_writeStatus (v : Word) (j : RegIdx) : (s.writeStatus v).reg j = s.reg j := rfl
@[simp] theorem State.key_writeStatus (v : Word) (k : KeyReg) : (s.writeStatus v).key k = s.key k := by
  cases k <;> rfl

/-! replyWith -/

@[simp] theorem State.params_replyWith (r : Reply) : (s.replyWith r).params = s.params := rfl
@[simp] theorem State.regs_replyWith (r : Reply) : (s.replyWith r).regs = s.regs := rfl
@[simp] theorem State.keyP_replyWith (r : Reply) : (s.replyWith r).keyP = s.keyP := rfl
@[simp] theorem State.keyQ_replyWith (r : Reply) : (s.replyWith r).keyQ = s.keyQ := rfl
@[simp] theorem State.keyE_replyWith (r : Reply) : (s.replyWith r).keyE = s.keyE := rfl
@[simp] theorem State.ie_replyWith (r : Reply) : (s.replyWith r).ie = s.ie := rfl
@[simp] theorem State.klock_replyWith (r : Reply) : (s.replyWith r).klock = s.klock := rfl
@[simp] theorem State.done_replyWith (r : Reply) : (s.replyWith r).done = s.done := rfl
@[simp] theorem State.accerr_replyWith (r : Reply) : (s.replyWith r).accerr = s.accerr := rfl
@[simp] theorem State.errcode_replyWith (r : Reply) : (s.replyWith r).errcode = s.errcode := rfl
@[simp] theorem State.estage_replyWith (r : Reply) : (s.replyWith r).estage = s.estage := rfl
@[simp] theorem State.cmd_replyWith (r : Reply) : (s.replyWith r).cmd = s.cmd := rfl
@[simp] theorem State.inflight_replyWith (r : Reply) : (s.replyWith r).inflight = s.inflight := rfl
@[simp] theorem State.arrivals_replyWith (r : Reply) : (s.replyWith r).arrivals = s.arrivals := rfl
@[simp] theorem State.reply_replyWith (r : Reply) : (s.replyWith r).reply = some r := rfl
@[simp] theorem State.draws_replyWith (r : Reply) : (s.replyWith r).draws = s.draws := rfl
@[simp] theorem State.busy_replyWith (r : Reply) : (s.replyWith r).busy = s.busy := rfl
@[simp] theorem State.reg_replyWith (r : Reply) (j : RegIdx) : (s.replyWith r).reg j = s.reg j := rfl
@[simp] theorem State.key_replyWith (r : Reply) (k : KeyReg) : (s.replyWith r).key k = s.key k := by
  cases k <;> rfl

/-! hardReset -/

@[simp] theorem State.params_hardReset : s.hardReset.params = s.params := rfl
@[simp] theorem State.regs_hardReset : s.hardReset.regs = Vector.replicate 16 0 := rfl
@[simp] theorem State.keyP_hardReset : s.hardReset.keyP = 0 := rfl
@[simp] theorem State.keyQ_hardReset : s.hardReset.keyQ = 0 := rfl
@[simp] theorem State.keyE_hardReset : s.hardReset.keyE = 0 := rfl
@[simp] theorem State.ie_hardReset : s.hardReset.ie = false := rfl
@[simp] theorem State.klock_hardReset : s.hardReset.klock = false := rfl
@[simp] theorem State.done_hardReset : s.hardReset.done = false := rfl
@[simp] theorem State.accerr_hardReset : s.hardReset.accerr = false := rfl
@[simp] theorem State.errcode_hardReset : s.hardReset.errcode = .ok := rfl
@[simp] theorem State.estage_hardReset : s.hardReset.estage = .noStage := rfl
@[simp] theorem State.cmd_hardReset : s.hardReset.cmd = 0 := rfl
@[simp] theorem State.inflight_hardReset : s.hardReset.inflight = none := rfl
@[simp] theorem State.arrivals_hardReset : s.hardReset.arrivals = s.arrivals := rfl
@[simp] theorem State.reply_hardReset : s.hardReset.reply = none := rfl
@[simp] theorem State.draws_hardReset : s.hardReset.draws = s.draws := rfl
@[simp] theorem State.busy_hardReset : s.hardReset.busy = false := rfl
@[simp] theorem State.reg_hardReset (j : RegIdx) : s.hardReset.reg j = 0 := by
  simp [State.reg]
@[simp] theorem State.key_hardReset (k : KeyReg) : s.hardReset.key k = 0 := by
  cases k <;> rfl

/-! Registers -/

@[simp] theorem State.reg_setReg_self (i : RegIdx) (v : Nat) : (s.setReg i v).reg i = v := by
  simp [State.reg, State.setReg]

@[simp] theorem State.reg_setReg_of_ne {i j : RegIdx} (v : Nat) (h : j ≠ i) : (s.setReg i v).reg j = s.reg j := by
  have h' : i.val ≠ j.val := fun e => h (Fin.ext e.symm)
  simp [State.reg, State.setReg, h']

theorem State.reg_setReg (i j : RegIdx) (v : Nat) : (s.setReg i v).reg j = if j = i then v else s.reg j := by
  by_cases h : j = i
  · subst h; simp
  · simp [h]

/-! setKey -/

@[simp] theorem State.params_setKey (k : KeyReg) (v : Nat) : (s.setKey k v).params = s.params := by
  cases k <;> rfl
@[simp] theorem State.regs_setKey (k : KeyReg) (v : Nat) : (s.setKey k v).regs = s.regs := by
  cases k <;> rfl
@[simp] theorem State.ie_setKey (k : KeyReg) (v : Nat) : (s.setKey k v).ie = s.ie := by
  cases k <;> rfl
@[simp] theorem State.klock_setKey (k : KeyReg) (v : Nat) : (s.setKey k v).klock = s.klock := by
  cases k <;> rfl
@[simp] theorem State.done_setKey (k : KeyReg) (v : Nat) : (s.setKey k v).done = s.done := by
  cases k <;> rfl
@[simp] theorem State.accerr_setKey (k : KeyReg) (v : Nat) : (s.setKey k v).accerr = s.accerr := by
  cases k <;> rfl
@[simp] theorem State.errcode_setKey (k : KeyReg) (v : Nat) : (s.setKey k v).errcode = s.errcode := by
  cases k <;> rfl
@[simp] theorem State.estage_setKey (k : KeyReg) (v : Nat) : (s.setKey k v).estage = s.estage := by
  cases k <;> rfl
@[simp] theorem State.cmd_setKey (k : KeyReg) (v : Nat) : (s.setKey k v).cmd = s.cmd := by
  cases k <;> rfl
@[simp] theorem State.inflight_setKey (k : KeyReg) (v : Nat) : (s.setKey k v).inflight = s.inflight := by
  cases k <;> rfl
@[simp] theorem State.arrivals_setKey (k : KeyReg) (v : Nat) : (s.setKey k v).arrivals = s.arrivals := by
  cases k <;> rfl
@[simp] theorem State.reply_setKey (k : KeyReg) (v : Nat) : (s.setKey k v).reply = s.reply := by
  cases k <;> rfl
@[simp] theorem State.draws_setKey (k : KeyReg) (v : Nat) : (s.setKey k v).draws = s.draws := by
  cases k <;> rfl
@[simp] theorem State.busy_setKey (k : KeyReg) (v : Nat) : (s.setKey k v).busy = s.busy := by
  cases k <;> rfl
@[simp] theorem State.reg_setKey (k : KeyReg) (v : Nat) (j : RegIdx) : (s.setKey k v).reg j = s.reg j := by
  cases k <;> rfl
@[simp] theorem State.key_setKey_self (k : KeyReg) (v : Nat) : (s.setKey k v).key k = v := by
  cases k <;> rfl
theorem State.key_setKey (k l : KeyReg) (v : Nat) : (s.setKey k v).key l = if l = k then v else s.key l := by
  cases k <;> cases l <;> rfl

/-! The state after reset -/

@[simp] theorem State.reg_resetOf (p : Params) (j : RegIdx) : (State.resetOf p).reg j = 0 := by
  simp [State.reg, State.resetOf]
@[simp] theorem State.key_resetOf (p : Params) (k : KeyReg) : (State.resetOf p).key k = 0 := by
  cases k <;> rfl
@[simp] theorem State.busy_resetOf (p : Params) : (State.resetOf p).busy = false := rfl

end Sys2Proof.Machine
end

