-- ==== Sys2Proof/Laws/HostOps.lean ====
section
/-! SUPPORT. Reading and loading a named register, data or key, over the other fields of State. -/

namespace Sys2Proof.Machine

variable (s : State)

@[simp] theorem State.named_data (i : RegIdx) : s.named (.data i) = s.reg i := rfl
@[simp] theorem State.named_key (k : KeyReg) : s.named (.key k) = s.key k := rfl
@[simp] theorem State.setNamed_data (i : RegIdx) (v : Nat) : s.setNamed (.data i) v = s.setReg i v := rfl
@[simp] theorem State.setNamed_key (k : KeyReg) (v : Nat) : s.setNamed (.key k) v = s.setKey k v := rfl

@[simp] theorem State.named_setNamed_self (x : RegName) (v : Nat) : (s.setNamed x v).named x = v := by
  cases x <;> simp

@[simp] theorem State.setNamed_setNamed (x : RegName) (v w : Nat) :
    (s.setNamed x v).setNamed x w = s.setNamed x w := by
  cases x with
  | data i => simp [State.setReg]
  | key k => cases k <;> rfl

@[simp] theorem State.params_setNamed (x : RegName) (v : Nat) : (s.setNamed x v).params = s.params := by
  cases x <;> simp
@[simp] theorem State.klock_setNamed (x : RegName) (v : Nat) : (s.setNamed x v).klock = s.klock := by
  cases x <;> simp
@[simp] theorem State.busy_setNamed (x : RegName) (v : Nat) : (s.setNamed x v).busy = s.busy := by
  cases x <;> simp
@[simp] theorem State.arrivals_setNamed (x : RegName) (v : Nat) : (s.setNamed x v).arrivals = s.arrivals := by
  cases x <;> simp

end Sys2Proof.Machine
end

