-- ==== Sys2Proof/Laws/Ops.lean ====
section
/-! SUPPORT. What each shared operation can do, said once: completion, the meanings through it, an
offered command, reads and writes of the window, and the step. -/

namespace Sys2Proof.Machine

/-! Sequencing of partial results -/

@[simp] theorem CmdOutcome.andThen_ok (v : Nat) (k : Nat → CmdOutcome) : (CmdOutcome.ok v).andThen k = k v := rfl
@[simp] theorem CmdOutcome.andThen_fail (c : ErrCode) (st : Stage) (k : Nat → CmdOutcome) :
    (CmdOutcome.fail c st).andThen k = .fail c st := rfl
@[simp] theorem CmdOutcome.gate_okNoDest (k : CmdOutcome) : CmdOutcome.okNoDest.gate k = k := rfl
@[simp] theorem CmdOutcome.gate_fail (c : ErrCode) (st : Stage) (k : CmdOutcome) :
    (CmdOutcome.fail c st).gate k = .fail c st := rfl

/-! Completion -/

section Complete
variable (rd : Option RegIdx) (o : CmdOutcome) (s : State)

@[simp] theorem State.params_complete : (s.complete rd o).params = s.params := by
  cases o <;> cases rd <;> rfl
@[simp] theorem State.ie_complete : (s.complete rd o).ie = s.ie := by
  cases o <;> cases rd <;> rfl
@[simp] theorem State.klock_complete : (s.complete rd o).klock = s.klock := by
  cases o <;> cases rd <;> rfl
@[simp] theorem State.accerr_complete : (s.complete rd o).accerr = s.accerr := by
  cases o <;> cases rd <;> rfl
@[simp] theorem State.cmd_complete : (s.complete rd o).cmd = s.cmd := by
  cases o <;> cases rd <;> rfl
@[simp] theorem State.arrivals_complete : (s.complete rd o).arrivals = s.arrivals := by
  cases o <;> cases rd <;> rfl
@[simp] theorem State.reply_complete : (s.complete rd o).reply = s.reply := by
  cases o <;> cases rd <;> rfl
@[simp] theorem State.draws_complete : (s.complete rd o).draws = s.draws := by
  cases o <;> cases rd <;> rfl
@[simp] theorem State.done_complete : (s.complete rd o).done = true := by
  cases o <;> cases rd <;> rfl
@[simp] theorem State.inflight_complete : (s.complete rd o).inflight = none := by
  cases o <;> cases rd <;> rfl
@[simp] theorem State.busy_complete : (s.complete rd o).busy = false := by
  cases o <;> cases rd <;> rfl
@[simp] theorem State.key_complete (k : KeyReg) : (s.complete rd o).key k = s.key k := by
  cases o <;> cases rd <;> cases k <;> rfl

/-- A register after a completion: the destination holds the value of a success, and every other
register is as before (R126, R127). -/
theorem State.reg_complete (j : RegIdx) :
    (s.complete rd o).reg j = match o with
      | .ok v => if rd = some j then v else s.reg j
      | .okNoDest => s.reg j
      | .fail _ _ => s.reg j := by
  cases o with
  | ok v =>
    cases rd with
    | none => rfl
    | some i =>
      simp only [State.complete, State.writeDest, State.reg_finish, State.reg_setReg, Option.some.injEq,
        eq_comm]
  | okNoDest => rfl
  | fail c st => rfl

end Complete

/-- The completion step answers exactly while a command runs (R126). -/
theorem completing_eq_next {rd : Option RegIdx} {f : InFlight → CmdOutcome} {s t : State} :
    completing rd f s = .next t ↔ ∃ r, s.inflight = some r ∧ t = s.complete rd (f r) := by
  unfold completing
  cases s.inflight with
  | none => simp
  | some r => simp [eq_comm]

theorem completing_running {rd : Option RegIdx} {f : InFlight → CmdOutcome} {s : State} {r : InFlight}
    (h : s.inflight = some r) : completing rd f s = .next (s.complete rd (f r)) := by
  simp [completing, h]

/-- The command function of a command, under a width W, on a snapshot (R125). -/
def outcomeOf (W : Nat) (r : InFlight) : Instr → CmdOutcome
  | .mul _ _ _ => fMul W r.a r.b
  | .sub _ _ _ => fSub r.a r.b
  | .tot _ _ _ => fTot W r.a r.b
  | .copr _ _ => fCopr r.a r.b
  | .minv _ _ _ => fMinv r.a r.b
  | .mexp _ _ _ _ => fMexp r.a r.b r.c
  | .enc _ _ => fEnc W r.a r.kp r.kq r.ke
  | .dec _ _ => fDec W r.a r.kp r.kq r.ke

/-- Every meaning is the completion step with its command function. -/
theorem exec_eq_completing (i : Instr) (s : State) :
    exec i s = completing (destOf i) (fun r => outcomeOf s.params.W r i) s := by
  cases i <;> rfl

/-- What a command can do. -/
theorem exec_eq_next {i : Instr} {s t : State} :
    exec i s = .next t ↔
      ∃ r, s.inflight = some r ∧ t = s.complete (destOf i) (outcomeOf s.params.W r i) := by
  rw [exec_eq_completing, completing_eq_next]

theorem exec_running {i : Instr} {s : State} {r : InFlight} (h : s.inflight = some r) :
    exec i s = .next (s.complete (destOf i) (outcomeOf s.params.W r i)) := by
  rw [exec_eq_completing, completing_running h]

/-! An offered command -/

theorem State.offerCommand_busy {s : State} (w : Word) (h : s.busy = true) : s.offerCommand w = s.refuseWrite := by
  simp [State.offerCommand, h]

theorem State.offerCommand_legal {s : State} {w : Word} (h : s.busy = false) (hw : legal w = true) :
    s.offerCommand w = s.accept w := by
  simp [State.offerCommand, h, hw]

theorem State.offerCommand_illegal {s : State} {w : Word} (h : s.busy = false) (hw : legal w = false) :
    s.offerCommand w = s.acceptIllegal w := by
  simp [State.offerCommand, h, hw]

theorem State.offerCommand_cases (s : State) (w : Word) :
    (s.busy = true ∧ s.offerCommand w = s.refuseWrite) ∨
    (s.busy = false ∧ legal w = true ∧ s.offerCommand w = s.accept w) ∨
    (s.busy = false ∧ legal w = false ∧ s.offerCommand w = s.acceptIllegal w) := by
  cases hb : s.busy
  · cases hw : legal w
    · exact .inr (.inr ⟨rfl, rfl, State.offerCommand_illegal hb hw⟩)
    · exact .inr (.inl ⟨rfl, rfl, State.offerCommand_legal hb hw⟩)
  · exact .inl ⟨rfl, State.offerCommand_busy w hb⟩

/-! Reads and writes of the window -/

/-- A read moves at most the count of free values (R69). -/
theorem State.readRegWord_state (x j : Nat) (s : State) :
    (s.readRegWord x j).2 = { s with draws := (s.readRegWord x j).2.draws } := by
  unfold State.readRegWord
  split
  · rfl
  · split <;> rfl

theorem State.readTarget_state (t : Target) (s : State) :
    (s.readTarget t).2 = { s with draws := (s.readTarget t).2.draws } := by
  cases t <;> first | rfl | exact State.readRegWord_state _ _ _

/-- What a write does (R70). -/
theorem State.writeTarget_cases (t : Target) (v : Word) (s : State) :
    (t = .ctrl ∧ s.writeTarget t v = s.writeCtrl v) ∨
    (t = .status ∧ s.writeTarget t v = s.writeStatus v) ∨
    (t = .cmd ∧ s.writeTarget t v = s.offerCommand v) ∨
    (∃ i j, t = .data i j ∧ j < s.params.NW ∧ s.busy = false ∧
      s.writeTarget t v = s.setReg i (replaceWord (s.reg i) j v)) ∨
    (∃ k j, t = .key k j ∧ j < s.params.NW ∧ s.busy = false ∧ s.klock = false ∧
      s.writeTarget t v = s.setKey k (replaceWord (s.key k) j v)) ∨
    (((∃ i j, t = .data i j ∧ j < s.params.NW ∧ s.busy = true) ∨
      ∃ k j, t = .key k j ∧ j < s.params.NW ∧ (s.busy = true ∨ s.klock = true)) ∧
      s.writeTarget t v = s.refuseWrite) ∨
    s.writeTarget t v = s := by
  cases t with
  | id => simp [State.writeTarget]
  | cfg => simp [State.writeTarget]
  | ctrl => simp [State.writeTarget]
  | status => simp [State.writeTarget]
  | cmd => simp [State.writeTarget]
  | reserved => simp [State.writeTarget]
  | data i j =>
    by_cases hj : s.params.NW ≤ j
    · simp [State.writeTarget, hj]
    · cases hb : s.busy <;> simp [State.writeTarget, hj, hb, Nat.lt_of_not_le hj]
  | key k j =>
    by_cases hj : s.params.NW ≤ j
    · simp [State.writeTarget, hj]
    · cases hb : s.busy <;> cases hk : s.klock <;> simp [State.writeTarget, hj, hb, hk, Nat.lt_of_not_le hj]

/-! One host event -/

/-- An event that is performed is a read that moves at most `reply` and `draws`; a refused write; a
write of the word its offset selects; or a reset. -/
theorem State.perform_cases {e : HostEvent} {s t : State} (h : s.perform e = .next t) :
    (∃ a n, e = .read a n ∧ t = { s with reply := t.reply, draws := t.draws }) ∨
    (∃ a n v, e = .write a n v ∧ t = s.replyWith (.busError s.params.busError)) ∨
    (∃ off v, e = .write (s.params.base + off) 4 v ∧ off < windowSize ∧
      t = (s.writeTarget (targetOf off) v).replyWith .done) ∨
    (e = .reset ∧ t = s.hardReset) := by
  cases e with
  | read a n =>
    refine .inl ⟨a, n, rfl, ?_⟩
    simp only [State.perform] at h
    split at h
    · simp only [Host.Outcome.next.injEq] at h
      subst h
      simp only [State.hostRead]
      split
      · simp only [State.replyWith]
        rw [State.readTarget_state]
      · rfl
    · simp at h
  | write a n v =>
    simp only [State.perform] at h
    split at h
    · next hin =>
      simp only [inWindow, Bool.and_eq_true, decide_eq_true_eq] at hin
      simp only [Host.Outcome.next.injEq] at h
      subst h
      simp only [State.hostWrite]
      split
      · next ha =>
        simp only [answers, Bool.and_eq_true, beq_iff_eq] at ha
        refine .inr (.inr (.inl ⟨a - s.params.base, v, ?_, ?_, rfl⟩))
        · rw [Nat.add_sub_cancel' hin.1, ha.1]
        · omega
      · exact .inr (.inl ⟨a, n, v, rfl, rfl⟩)
    · simp at h
  | reset =>
    simp only [State.perform, Host.Outcome.next.injEq] at h
    exact .inr (.inr (.inr ⟨rfl, h.symm⟩))

/-! One step -/

/-- What a step can do: nothing, the completion of the running command, or the next host event. -/
theorem step_cases {s t : State} (h : step s = .next t) :
    (s.arrivals = [] ∧ s.inflight = none ∧ t = s) ∨
    (∃ r i, s.inflight = some r ∧ (∀ a rest, s.arrivals = a :: rest → a.afterCompletion = true) ∧
      runningInstr r s.cmd = some i ∧ t = s.complete (destOf i) (outcomeOf s.params.W r i)) ∨
    (∃ a rest, s.arrivals = a :: rest ∧ (s.busy = true → a.afterCompletion = false) ∧
      State.perform a.event { s with arrivals := rest } = .next t) := by
  have engine : ∀ r, s.inflight = some r → engineStep r s = .next t →
      ∃ i, runningInstr r s.cmd = some i ∧ t = s.complete (destOf i) (outcomeOf s.params.W r i) := by
    intro r hr he
    unfold engineStep at he
    cases hi : runningInstr r s.cmd with
    | none => simp [hi] at he
    | some i =>
      rw [hi] at he
      obtain ⟨r', hr', ht⟩ := exec_eq_next.mp he
      rw [hr] at hr'
      cases hr'
      exact ⟨i, rfl, ht⟩
  unfold step nextMove at h
  cases ha : s.arrivals with
  | nil =>
    cases hr : s.inflight with
    | none => simp [ha, hr] at h; exact .inl ⟨rfl, rfl, h.symm⟩
    | some r =>
      simp only [ha, hr] at h
      obtain ⟨i, hi, ht⟩ := engine r hr h
      exact .inr (.inl ⟨r, i, rfl, by simp, hi, ht⟩)
  | cons a rest =>
    cases hr : s.inflight with
    | none =>
      simp only [ha, hr] at h
      exact .inr (.inr ⟨a, rest, rfl, by simp [State.busy, hr], by simpa [hr] using h⟩)
    | some r =>
      cases hc : a.afterCompletion with
      | true =>
        simp only [ha, hr, hc, if_true] at h
        obtain ⟨i, hi, ht⟩ := engine r hr h
        exact .inr (.inl ⟨r, i, rfl, by rintro b l ⟨⟩; exact hc, hi, ht⟩)
      | false =>
        simp only [ha, hr, hc, Bool.false_eq_true, if_false] at h
        exact .inr (.inr ⟨a, rest, rfl, fun _ => hc, by simpa [hr] using h⟩)

/-- A run of one step more starts with that step. -/
theorem core_run_succ {k : Nat} {M : Host.Core} {s t : M.State} (h : M.step s = .next t) :
    M.run (k + 1) s = M.run k t := by
  rw [Host.Core.run, h]

/-- A run goes on after a step. -/
theorem run_of_step {k : Nat} {s t : State} (h : step s = .next t) :
    Sys2Proof.core.run (k + 1) s = Sys2Proof.core.run k t :=
  core_run_succ (M := Sys2Proof.core) h

end Sys2Proof.Machine
end

