-- ==== Sys2Proof/Laws/PerInstr.lean ====
section
/-! SUPPORT. Per command: the word of every command is legal (R95, R98), through the row of R94 that it
matches. -/

namespace Sys2Proof.Laws.EncodeLegal

/-- The word of the command is legal. -/
def Statement (i : Instr) : Prop := legal (encode i) = true

/-- A word that matches a row of R94 is legal (R95). -/
theorem legal_of_row {w : Word} (r : Row) (h : r ∈ commandRows) (hw : w &&& r.mask = r.value) : legal w = true :=
  List.any_eq_true.mpr ⟨r, h, by simp [Row.matchesWord, hw]⟩

theorem mul (rd rs1 rs2 : RegIdx) : Statement (.mul rd rs1 rs2) := by
  refine legal_of_row ⟨"MUL", 0xFFFF000F, 0x00000001⟩ (by decide) ?_
  apply BitVec.eq_of_getLsbD_eq
  intro i hi
  interval_cases i <;> simp [encode, Instr.fields, Fields.toWord]

theorem sub (rd rs1 rs2 : RegIdx) : Statement (.sub rd rs1 rs2) := by
  refine legal_of_row ⟨"SUB", 0xFFFF000F, 0x00000002⟩ (by decide) ?_
  apply BitVec.eq_of_getLsbD_eq
  intro i hi
  interval_cases i <;> simp [encode, Instr.fields, Fields.toWord]

theorem tot (rd rs1 rs2 : RegIdx) : Statement (.tot rd rs1 rs2) := by
  refine legal_of_row ⟨"TOT", 0xFFFF000F, 0x00000003⟩ (by decide) ?_
  apply BitVec.eq_of_getLsbD_eq
  intro i hi
  interval_cases i <;> simp [encode, Instr.fields, Fields.toWord]

theorem copr (rs1 rs2 : RegIdx) : Statement (.copr rs1 rs2) := by
  refine legal_of_row ⟨"COPR", 0xFFFF00FF, 0x00000004⟩ (by decide) ?_
  apply BitVec.eq_of_getLsbD_eq
  intro i hi
  interval_cases i <;> simp [encode, Instr.fields, Fields.toWord]

theorem minv (rd rs1 rs2 : RegIdx) : Statement (.minv rd rs1 rs2) := by
  refine legal_of_row ⟨"MINV", 0xFFFF000F, 0x00000005⟩ (by decide) ?_
  apply BitVec.eq_of_getLsbD_eq
  intro i hi
  interval_cases i <;> simp [encode, Instr.fields, Fields.toWord]

theorem mexp (rd rs1 rs2 rs3 : RegIdx) : Statement (.mexp rd rs1 rs2 rs3) := by
  refine legal_of_row ⟨"MEXP", 0xFFF0000F, 0x00000006⟩ (by decide) ?_
  apply BitVec.eq_of_getLsbD_eq
  intro i hi
  interval_cases i <;> simp [encode, Instr.fields, Fields.toWord]

theorem enc (rd rs1 : RegIdx) : Statement (.enc rd rs1) := by
  refine legal_of_row ⟨"ENC", 0xFFFFF00F, 0x00000007⟩ (by decide) ?_
  apply BitVec.eq_of_getLsbD_eq
  intro i hi
  interval_cases i <;> simp [encode, Instr.fields, Fields.toWord]

theorem dec (rd rs1 : RegIdx) : Statement (.dec rd rs1) := by
  refine legal_of_row ⟨"DEC", 0xFFFFF00F, 0x00000008⟩ (by decide) ?_
  apply BitVec.eq_of_getLsbD_eq
  intro i hi
  interval_cases i <;> simp [encode, Instr.fields, Fields.toWord]

end Sys2Proof.Laws.EncodeLegal

/-- The word of every command is legal. -/
theorem Sys2Proof.encode_legal (i : Sys2Proof.Instr) : Sys2Proof.legal (Sys2Proof.encode i) = true := by
  cases i with
  | mul rd rs1 rs2 => exact Sys2Proof.Laws.EncodeLegal.mul rd rs1 rs2
  | sub rd rs1 rs2 => exact Sys2Proof.Laws.EncodeLegal.sub rd rs1 rs2
  | tot rd rs1 rs2 => exact Sys2Proof.Laws.EncodeLegal.tot rd rs1 rs2
  | copr rs1 rs2 => exact Sys2Proof.Laws.EncodeLegal.copr rs1 rs2
  | minv rd rs1 rs2 => exact Sys2Proof.Laws.EncodeLegal.minv rd rs1 rs2
  | mexp rd rs1 rs2 rs3 => exact Sys2Proof.Laws.EncodeLegal.mexp rd rs1 rs2 rs3
  | enc rd rs1 => exact Sys2Proof.Laws.EncodeLegal.enc rd rs1
  | dec rd rs1 => exact Sys2Proof.Laws.EncodeLegal.dec rd rs1
end

