-- ==== Sys2Proof/Tests/Slice0.lean ====
section
/-! SUPPORT. Tests, with expected results from 95_test_vectors.md and the worked examples of the rules,
and a witness for the hypotheses of every statement. -/

namespace Sys2Proof.Tests

open Sys2Proof.Machine Sys2Proof.Claims

/-- The next state, if there is one. -/
def nextOf : Host.Outcome State Fault Refusal → Option State
  | .next s => some s
  | .fault _ => none
  | .refused _ => none

/-- The reset state under a width, with some registers and the key set. -/
def made (W : Nat) (regs : List (RegIdx × Nat)) (key : Nat × Nat × Nat) : State :=
  regs.foldl (fun s r => s.setReg r.1 r.2)
    { State.resetOf { Params.default with W := W } with keyP := key.1, keyQ := key.2.1, keyE := key.2.2 }

/-- `made`, with a command accepted and running. -/
def running (i : Instr) (W : Nat) (regs : List (RegIdx × Nat)) (key : Nat × Nat × Nat) : State :=
  (made W regs key).loadCommand (encode i)

/-- The code, the stage and one register after a command has completed. -/
def result (i : Instr) (rd : RegIdx) (W : Nat) (regs : List (RegIdx × Nat)) (key : Nat × Nat × Nat) :
    Option (ErrCode × Stage × Nat) :=
  (nextOf (step (running i W regs key))).map fun t => (t.errcode, t.estage, t.reg rd)

/-! WellFormed: each check refuses a term that breaks it (R93, R96). -/

theorem test_wf_refuses_opcode_zero : (Fields.mk 0 0 0 0 0 0).wf = false := by decide
theorem test_wf_refuses_reserved_opcode : (Fields.mk 9 0 0 0 0 0).wf = false := by decide
theorem test_wf_refuses_reserved_bits : (Fields.mk 1 3 1 2 0 0x800).wf = false := by decide
theorem test_wf_refuses_rs3_of_mul_sub_tot_minv :
    [1, 2, 3, 5].all (fun op => (Fields.mk op 3 1 2 1 0).wf == false) = true := by decide
theorem test_wf_refuses_rd_and_rs3_of_copr :
    (Fields.mk 4 1 1 2 0 0).wf = false ∧ (Fields.mk 4 0 1 2 1 0).wf = false := by decide
theorem test_wf_refuses_rs2_and_rs3_of_enc_dec :
    [7, 8].all (fun op => (Fields.mk op 1 0 1 0 0).wf == false && (Fields.mk op 1 0 0 1 0).wf == false) = true := by
  decide
theorem test_wf_accepts_mexp : (Fields.mk 6 6 5 2 4 0).wf = true := by decide
theorem test_params_refuse_width_not_multiple_of_32 : ¬ ({ Params.default with W := 48 } : Params).wf := by decide
theorem test_params_refuse_width_too_small_or_large :
    ¬ ({ Params.default with W := 0 } : Params).wf ∧ ¬ ({ Params.default with W := 4128 } : Params).wf := by decide
theorem test_params_refuse_unaligned_base : ¬ ({ Params.default with base := 0x1000 } : Params).wf := by decide

/-! Decoding: words written out bit by bit from the patterns of R94. -/

theorem test_decode_mul : decode 0b0000_0000_0000_0000_0010_0001_0011_0001 = .ok (.mul 3 1 2) := by decide
theorem test_decode_sub : decode 0b0000_0000_0000_0000_0100_0011_0101_0010 = .ok (.sub 5 3 4) := by decide
theorem test_decode_tot : decode 0b0000_0000_0000_0000_0001_0000_0011_0011 = .ok (.tot 3 0 1) := by decide
theorem test_decode_copr : decode 0b0000_0000_0000_0000_0011_0010_0000_0100 = .ok (.copr 2 3) := by decide
theorem test_decode_minv : decode 0b0000_0000_0000_0000_0011_0010_0100_0101 = .ok (.minv 4 2 3) := by decide
theorem test_decode_mexp : decode 0b0000_0000_0000_0100_0010_0101_0110_0110 = .ok (.mexp 6 5 2 4) := by decide
theorem test_decode_enc : decode 0b0000_0000_0000_0000_0000_0000_0001_0111 = .ok (.enc 1 0) := by decide
theorem test_decode_dec : decode 0b0000_0000_0000_0000_0000_0001_0010_1000 = .ok (.dec 2 1) := by decide
/-- The illegal words of 95_test_vectors.md, each refused by name. -/
theorem test_decode_refuses :
    decode 0x00000000 = .error (.reservedOpcode 0) ∧ decode 0x00000009 = .error (.reservedOpcode 9) ∧
    decode 0x0000000F = .error (.reservedOpcode 15) ∧ decode 0x00000014 = .error (.unusedField .rd) ∧
    decode 0x00010001 = .error (.unusedField .rs3) ∧ decode 0x00100006 = .error (.reservedBits 1) ∧
    decode 0x00001017 = .error (.unusedField .rs2) ∧ decode 0x80000001 = .error (.reservedBits 0x800) := by decide
/-- The same words under the predicate of R95. -/
theorem test_illegal_words :
    [0x00000000, 0x00000009, 0x0000000F, 0x00000014, 0x00010001, 0x00100006, 0x00001017, 0x80000001].all
      (fun w => legal w == false) = true := by decide
theorem test_decodeTableWord :
    decodeTableWord 32 0x00042566 = some (.mexp 6 5 2 4) ∧ decodeTableWord 32 0 = none := by decide
/-- The programs P2 and P3 encode these. -/
theorem test_encode :
    encode (.mul 5 0 1) = 0x00001051 ∧ encode (.mexp 8 6 4 5) = 0x00054686 ∧ encode (.copr 2 3) = 0x00003204 ∧
    encode (.sub 5 3 4) = 0x00004352 := by decide
theorem test_assembler :
    readAsm ['M', 'U', 'L', ' ', 'R', '3', ',', 'r', '1', ' ', ',', ' ', 'r', '1', '2', ' ', ';', 'x'] =
      some (.mul 3 1 12) ∧
    readAsm ['e', 'n', 'c', ' ', 'r', '1'] = none ∧ readAsm ['s', 'u', 'b', ' ', 'r', '1', ',', 'r', '1', '6', ',', 'r', '0'] = none := by
  decide

/-! The commands: the vectors of 95_test_vectors.md on the command functions, and on a step for the
cases at a boundary, which are also the witnesses of the result statements. -/

theorem test_mul :
    fMul 32 13 17 = .ok 221 ∧ fMul 32 0 0 = .fail .badarg .noStage ∧ fMul 32 1 0xFFFFFFFF = .ok 0xFFFFFFFF ∧
    fMul 64 0x10000 0x10000 = .ok 0x100000000 ∧ fMul 64 0xFFFFFFFF 0xFFFFFFFF = .ok 0xFFFFFFFE00000001 := by decide
theorem witness_MulResult :
    (running (.mul 3 1 2) 32 [(1, 13)] (0, 0, 0)).inflight =
      some (snapshot (encode (.mul 3 1 2)) (made 32 [(1, 13)] (0, 0, 0))) ∧
    result (.mul 3 1 2) 3 32 [(1, 0), (2, 5), (3, 9)] (0, 0, 0) = some (.badarg, .noStage, 9) ∧
    result (.mul 3 1 2) 3 32 [(1, 5), (2, 0), (3, 9)] (0, 0, 0) = some (.badarg, .noStage, 9) ∧
    result (.mul 3 1 2) 3 32 [(1, 0x10000), (2, 0x10000), (3, 9)] (0, 0, 0) = some (.overflow, .noStage, 9) ∧
    result (.mul 3 1 2) 3 32 [(1, 0xFFFF), (2, 0x10001)] (0, 0, 0) = some (.ok, .noStage, 0xFFFFFFFF) ∧
    result (.mul 1 1 1) 1 32 [(1, 7)] (0, 0, 0) = some (.ok, .noStage, 49) := by decide

theorem test_sub :
    fSub 3 5 = .fail .badarg .noStage ∧ fSub 5 3 = .ok 2 ∧ fSub 0 0 = .ok 0 ∧ fSub 0xFFFFFFFF 0 = .ok 0xFFFFFFFF := by
  decide
theorem witness_SubResult :
    (running (.sub 5 3 4) 32 [(3, 3)] (0, 0, 0)).inflight =
      some (snapshot (encode (.sub 5 3 4)) (made 32 [(3, 3)] (0, 0, 0))) ∧
    result (.sub 5 3 4) 5 32 [(3, 0), (4, 1), (5, 9)] (0, 0, 0) = some (.badarg, .noStage, 9) ∧
    result (.sub 5 3 4) 5 32 [(3, 7), (4, 7), (5, 9)] (0, 0, 0) = some (.ok, .noStage, 0) ∧
    result (.sub 3 3 4) 3 32 [(3, 5), (4, 3)] (0, 0, 0) = some (.ok, .noStage, 2) := by decide

theorem test_tot :
    fTot 32 13 17 = .ok 192 ∧ fTot 32 0 17 = .fail .badarg .noStage ∧ fTot 32 13 0 = .fail .badarg .noStage ∧
    fTot 32 4 6 = .ok 15 ∧ fTot 32 1223 1987 = .ok 2426892 := by decide
theorem witness_TotResult :
    (running (.tot 3 0 1) 32 [(0, 13)] (0, 0, 0)).inflight =
      some (snapshot (encode (.tot 3 0 1)) (made 32 [(0, 13)] (0, 0, 0))) ∧
    result (.tot 3 0 1) 3 32 [(0, 1), (1, 17), (3, 9)] (0, 0, 0) = some (.badarg, .noStage, 9) ∧
    result (.tot 3 0 1) 3 32 [(0, 13), (1, 1), (3, 9)] (0, 0, 0) = some (.badarg, .noStage, 9) ∧
    result (.tot 3 0 1) 3 32 [(0, 0x10001), (1, 0x10001), (3, 9)] (0, 0, 0) = some (.overflow, .noStage, 9) ∧
    result (.tot 3 0 1) 3 32 [(0, 0x10000), (1, 0x10001)] (0, 0, 0) = some (.ok, .noStage, 0xFFFF0000) ∧
    result (.tot 3 0 1) 3 32 [(0, 2), (1, 2)] (0, 0, 0) = some (.ok, .noStage, 1) := by decide

theorem test_copr :
    fCopr 35 192 = .okNoDest ∧ fCopr 2 192 = .fail .opfail .noStage ∧ fCopr 0 0 = .fail .opfail .noStage ∧
    fCopr 1 0 = .okNoDest ∧ fCopr 0 1 = .okNoDest ∧ fCopr 7 7 = .fail .opfail .noStage ∧
    fCopr 948047 2426892 = .okNoDest ∧ fCopr 0xFFFFFFFF 0xFFFFFFFE = .okNoDest := by decide
theorem witness_CoprResult :
    (running (.copr 2 3) 32 [(2, 35), (3, 192)] (0, 0, 0)).inflight =
      some (snapshot (encode (.copr 2 3)) (made 32 [(2, 35), (3, 192)] (0, 0, 0))) ∧
    result (.copr 2 3) 0 32 [(0, 9), (2, 35), (3, 192)] (0, 0, 0) = some (.ok, .noStage, 9) ∧
    result (.copr 2 3) 0 32 [(0, 9), (2, 2), (3, 192)] (0, 0, 0) = some (.opfail, .noStage, 9) := by decide

theorem test_minv :
    fMinv 35 192 = .ok 11 ∧ fMinv 948047 2426892 = .ok 1051235 ∧ fMinv 227 192 = .ok 11 ∧ fMinv 0 1 = .ok 0 ∧
    fMinv 12345 1 = .ok 0 ∧ fMinv 0 7 = .fail .opfail .noStage ∧ fMinv 1 7 = .ok 1 ∧ fMinv 6 7 = .ok 6 ∧
    fMinv 3 0xFFFFFFFF = .fail .opfail .noStage := by decide
theorem witness_MinvResult :
    (running (.minv 4 2 3) 32 [(2, 35), (3, 192)] (0, 0, 0)).inflight =
      some (snapshot (encode (.minv 4 2 3)) (made 32 [(2, 35), (3, 192)] (0, 0, 0))) ∧
    result (.minv 4 2 3) 4 32 [(2, 35), (3, 192)] (0, 0, 0) = some (.ok, .noStage, 11) ∧
    result (.minv 4 2 3) 4 32 [(2, 5), (4, 9)] (0, 0, 0) = some (.badarg, .noStage, 9) ∧
    result (.minv 4 2 3) 4 32 [(2, 2), (3, 192), (4, 9)] (0, 0, 0) = some (.opfail, .noStage, 9) := by decide

theorem test_mexp :
    fMexp 5 35 221 = .ok 125 ∧ fMexp 125 11 221 = .ok 5 ∧ fMexp 5 948047 2430101 = .ok 915542 ∧ fMexp 9 9 1 = .ok 0 ∧
    fMexp 0 0 7 = .ok 1 ∧ fMexp 0 5 7 = .ok 0 ∧ fMexp 300 1 221 = .ok 79 ∧ fMexp 3 10 192 = .ok 105 ∧
    fMexp 35 190 192 = .ok 121 ∧ fMexp 2 0xFFFFFFFF 0xFFFFFFFF = .ok 0x80000000 := by decide
theorem witness_MexpResult :
    (running (.mexp 6 5 2 4) 32 [(5, 5), (2, 35), (4, 221)] (0, 0, 0)).inflight =
      some (snapshot (encode (.mexp 6 5 2 4)) (made 32 [(5, 5), (2, 35), (4, 221)] (0, 0, 0))) ∧
    result (.mexp 6 5 2 4) 6 32 [(5, 5), (2, 35), (4, 221)] (0, 0, 0) = some (.ok, .noStage, 125) ∧
    result (.mexp 6 5 2 4) 6 32 [(5, 5), (2, 3), (6, 9)] (0, 0, 0) = some (.badarg, .noStage, 9) ∧
    result (.mexp 0 0 0 0) 0 32 [(0, 1)] (0, 0, 0) = some (.ok, .noStage, 0) := by decide

theorem test_enc :
    fEnc 32 5 1223 1987 948047 = .ok 915542 ∧ fEnc 32 5 0 0x10000 3 = .fail .badarg .modulus ∧
    fEnc 32 5 13 17 1 = .ok 5 ∧ fEnc 32 5 13 17 227 = .ok 125 ∧ fEnc 32 300 13 17 35 = .ok 209 ∧
    fEnc 32 221 13 17 35 = .ok 0 ∧ fEnc 32 220 13 17 35 = .ok 220 ∧ fEnc 32 3 2 2 0 = .ok 1 ∧
    fEnc 32 5 13 13 5 = .ok 83 := by decide
theorem witness_EncResult :
    (running (.enc 1 0) 32 [(0, 5)] (13, 17, 35)).inflight =
      some (snapshot (encode (.enc 1 0)) (made 32 [(0, 5)] (13, 17, 35))) ∧
    result (.enc 1 0) 1 32 [(0, 5)] (13, 17, 35) = some (.ok, .noStage, 125) ∧
    result (.enc 1 0) 1 32 [(0, 5), (1, 9)] (13, 0, 35) = some (.badarg, .modulus, 9) ∧
    result (.enc 1 0) 1 32 [(0, 5), (1, 9)] (0x10000, 0x10000, 3) = some (.overflow, .modulus, 9) ∧
    result (.enc 1 0) 1 32 [(0, 5), (1, 9)] (1, 17, 35) = some (.badarg, .totient, 9) ∧
    result (.enc 1 0) 1 32 [(0, 5), (1, 9)] (13, 17, 2) = some (.opfail, .exponent, 9) := by decide

theorem test_dec :
    fDec 32 915542 1223 1987 948047 = .ok 5 ∧ fDec 32 125 13 17 227 = .ok 5 ∧ fDec 32 220 13 17 35 = .ok 220 ∧
    fDec 32 3 2 2 0 = .ok 1 ∧ fDec 32 83 13 13 5 = .ok 109 := by decide
theorem witness_DecResult :
    (running (.dec 2 1) 32 [(1, 125)] (13, 17, 35)).inflight =
      some (snapshot (encode (.dec 2 1)) (made 32 [(1, 125)] (13, 17, 35))) ∧
    result (.dec 2 1) 2 32 [(1, 125)] (13, 17, 35) = some (.ok, .noStage, 5) ∧
    result (.dec 2 1) 2 32 [(1, 5), (2, 9)] (0, 17, 35) = some (.badarg, .modulus, 9) ∧
    result (.dec 2 1) 2 32 [(1, 5), (2, 9)] (0x10000, 0x10000, 3) = some (.overflow, .modulus, 9) ∧
    result (.dec 2 1) 2 32 [(1, 5), (2, 9)] (13, 1, 35) = some (.badarg, .totient, 9) ∧
    result (.dec 2 1) 2 32 [(1, 125), (2, 9)] (13, 17, 2) = some (.opfail, .exponent, 9) := by decide

/-! The register interface: the table of 95_test_vectors.md, one access each. -/

/-- The word a read at an offset answers. -/
def readAt (off : Nat) (s : State) : Option Reply :=
  (nextOf (s.perform (opRd s.params off))).bind fun t => t.reply

/-- The state after a write at an offset. -/
def writeAt (off : Nat) (v : Word) (s : State) : Option State := nextOf (s.perform (opWr s.params off v))

theorem test_id_and_cfg :
    readAt 0x000 State.reset = some (.data 0x5253414D) ∧ readAt 0x004 State.reset = some (.data 0x01100020) ∧
    readAt 0x004 (made 2048 [] (0, 0, 0)) = some (.data 0x01100800) ∧
    readAt 0x00C State.reset = some (.data 0) := by decide
theorem test_words_beyond_width_read_zero :
    readAt 0x1004 (made 32 [(0, 0x1FFFFFFFF)] (0, 0, 0)) = some (.data 0) ∧
    readAt 0x1004 (made 64 [(0, 0x1FFFFFFFF)] (0, 0, 0)) = some (.data 1) := by decide
theorem test_reserved_offset_ignores_writes : (writeAt 0x0014 5 State.reset).map (fun t => t.accerr) = some false := by
  decide
theorem test_half_word_access_is_refused :
    (nextOf (State.reset.perform (.read 0x1000 2))).bind (fun t => t.reply) = some (.busError 0) := by decide
theorem test_klock_stays_set :
    ((writeAt 0x008 2 State.reset).bind (writeAt 0x008 0)).map (fun t => (t.klock, t.ie)) = some (true, false) := by
  decide
theorem test_status_write_while_busy :
    (writeAt 0x00C 0xFFFFFFFF { running (.enc 1 0) 32 [] (13, 17, 35) with accerr := true }).map
      (fun t => (t.busy, t.done, t.accerr)) = some (true, false, false) := by decide
theorem test_cmd_write_while_busy :
    (writeAt 0x010 0x00000128 (running (.enc 1 0) 32 [] (13, 17, 35))).map (fun t => (t.accerr, t.cmd)) =
      some (true, 0x00000017) := by decide
/-- The STATUS word of program P3 after its illegal word: DONE, IRQ, ERRCODE 4. -/
theorem test_status_after_illegal_word :
    ((writeAt 0x008 1 State.reset).bind (writeAt 0x010 0x00000014)).bind (readAt 0x00C) =
      some (.data 0x0000040A) := by decide
/-- The STATUS word of program P3 after ENC under its key: DONE, IRQ, ERRCODE 2, ESTAGE 3. -/
theorem test_status_after_failed_enc :
    (nextOf (step { running (.enc 1 0) 32 [(0, 5)] (13, 17, 2) with ie := true })).bind (readAt 0x00C) =
      some (.data 0x0000320A) := by decide
theorem test_word_order :
    ((writeAt 0x1400 0 (made 64 [] (0, 0, 0))).bind (writeAt 0x1404 1)).map (fun t => t.reg 2) =
      some 0x100000000 := by decide
theorem test_fetch_word_runs_next :
    (nextOf (step (State.reset.withFetchWord 32 0x00000017))).map (fun t => (t.errcode, t.estage, t.done)) =
      some (.badarg, .modulus, true) := by decide

/-! Witnesses of the other statements. -/

/-- Idle, with a key and an operand. -/
def idle : State := made 32 [(0, 220)] (13, 17, 35)

/-- ENC running under that key. -/
def busy : State := running (.enc 1 0) 32 [(0, 220)] (13, 17, 35)

theorem inv_idle : Inv idle := by
  refine ⟨by decide, ⟨by decide, fun k => by cases k <;> decide⟩, ?_, ?_, by decide⟩
  · intro r h
    have h' : idle.inflight = none := by decide
    rw [h'] at h; cases h
  · intro h; exact absurd h (by decide)

theorem inv_busy : Inv busy := by
  refine ⟨by decide, ⟨by decide, fun k => by cases k <;> decide⟩, ?_, ?_, by decide⟩
  · intro r h
    have h' : some (snapshot (encode (.enc 1 0)) idle) = some r := h
    cases h'
    exact ⟨by decide, by decide⟩
  · intro _; decide

/-- An event is next, when it is not ordered after a completion. -/
theorem nextIs_atOnce (s : State) (e : HostEvent) (rest : List Arrival) :
    NextIs { s with arrivals := atOnce e :: rest } e rest := ⟨false, rfl, fun _ => rfl⟩

theorem witness_EncodeOfDecode : decode 0x00002131 = .ok (.mul 3 1 2) := by decide

theorem witness_StepRunsCommand :
    CompletesNext busy ∧ busy.inflight = some (snapshot 0x00000017 idle) ∧
    (snapshot 0x00000017 idle).op = (fieldsOf busy.cmd).op ∧ (snapshot 0x00000017 idle).rd = (fieldsOf busy.cmd).rd ∧
    decode busy.cmd = .ok (.enc 1 0) := by
  refine ⟨⟨by decide, ?_⟩, by decide, by decide, by decide, by decide⟩
  intro a rest h
  exact absurd h (by simp [busy, running, State.loadCommand])

/-- Both clauses: an event before the completion of a running command, and a run that has ended. -/
theorem witness_StepTakesEvent :
    NextIs { busy with arrivals := [atOnce .reset] } .reset [] ∧ busy.busy = true ∧ idle.RunEnded :=
  ⟨nextIs_atOnce busy .reset [], by decide, by decide, by decide⟩

theorem witness_CommandRunsInTwoSteps :
    let s : State := { idle with arrivals := [⟨true, opCmd idle.params (.enc 1 0)⟩] }
    s.busy = false ∧ s.arrivals = [⟨true, opCmd s.params (.enc 1 0)⟩] := ⟨by decide, rfl⟩

/-- The three clauses, the last at the smallest modulus. -/
theorem witness_ModinvIsTheInverse :
    (192 ≠ 0 ∧ Nat.gcd 2 192 ≠ 1) ∧ 1 ≠ 0 ∧ Nat.gcd 0 1 = 1 ∧ modinv 5 0 .exponent = .fail .badarg .exponent := by
  decide

theorem witness_ModexpIsPower : 1 ≤ 1 ∧ modexp 9 9 1 = 0 := by decide

/-- The key of Scenario 1, with the largest message below n. -/
theorem witness_DecUndoesEnc :
    let s : State := { idle with arrivals :=
      [⟨false, opCmd idle.params (.enc 1 0)⟩, ⟨true, opCmd idle.params (.dec 2 1)⟩] }
    Nat.Prime s.keyP ∧ Nat.Prime s.keyQ ∧ s.keyP ≠ s.keyQ ∧ s.keyP * s.keyQ < 2 ^ s.params.W ∧
    Nat.gcd s.keyE ((s.keyP - 1) * (s.keyQ - 1)) = 1 ∧ s.reg 0 < s.keyP * s.keyQ ∧ s.busy = false := by
  refine ⟨?_, ?_, by decide, by decide, by decide, by decide, by decide⟩
  · exact (by norm_num : Nat.Prime 13)
  · exact (by norm_num : Nat.Prime 17)

/-- A success and a failure. -/
theorem witness_CommandFrame :
    (nextOf (exec (.enc 1 0) busy)).map (fun t => t.errcode) = some .ok ∧
    (nextOf (exec (.enc 1 0) (running (.enc 1 0) 32 [] (13, 17, 2)))).map (fun t => t.errcode) = some .opfail := by
  decide

theorem witness_ReportedCodes :
    (nextOf (exec (.dec 2 1) (running (.dec 2 1) 32 [] (13, 1, 35)))).map (fun t => (t.errcode, t.estage)) =
      some (.badarg, .totient) ∧
    (nextOf (exec (.sub 5 3 4) (running (.sub 5 3 4) 32 [] (0, 0, 0)))).map (fun t => (t.errcode, t.estage)) =
      some (.ok, .noStage) := by decide

theorem witness_EqualSnapshotsEqualOutcomes :
    let s' : State := { busy with ie := true, accerr := true, regs := busy.regs.set 7 1 }
    busy ≠ s' ∧ (Instr.enc 1 0).fields.op = (Instr.enc 2 7).fields.op ∧ busy.inflight = s'.inflight ∧
    busy.params.W = s'.params.W ∧ (nextOf (exec (.enc 1 0) busy)).map (fun t => t.errcode) = some .ok ∧
    (nextOf (exec (.enc 2 7) s')).isSome = true ∧ destOf (.enc 1 0) = some 1 ∧ destOf (.enc 2 7) = some 2 := by
  decide

/-- A key under which both fail. -/
theorem witness_EncAndDecFailAlike :
    fEnc 32 5 13 17 2 = .fail .opfail .exponent ∧ fDec 32 125 13 17 2 = .fail .opfail .exponent := by decide

theorem witness_LegalWriteIsAccepted :
    idle.busy = false ∧ legal 0x00000017 = true ∧
    NextIs { idle with arrivals := [atOnce (.write (idle.params.base + 0x010) 4 0x00000017)] }
      (.write (idle.params.base + 0x010) 4 0x00000017) [] :=
  ⟨by decide, by decide, nextIs_atOnce _ _ _⟩

theorem witness_IllegalWriteCompletes :
    idle.busy = false ∧ legal 0x00000014 = false ∧
    NextIs { idle with arrivals := [atOnce (.write (idle.params.base + 0x010) 4 0x00000014)] }
      (.write (idle.params.base + 0x010) 4 0x00000014) [] :=
  ⟨by decide, by decide, nextIs_atOnce _ _ _⟩

/-- CMD, the last data register and each key register, at the last backed word of W = 64. -/
theorem witness_BusyWritesAreRefused :
    let s := running (.enc 1 0) 64 [] (13, 17, 35)
    s.busy = true ∧ 1 < s.params.NW ∧ (0x2E04 = 0x1000 + 0x200 * (15 : RegIdx).val + 4 * 1) ∧
    [0x010, 0x2E04, 0x3004, 0x3204, 0x3404].all (fun off =>
      (writeAt off 7 s).map (fun t => t.accerr) == some true) = true ∧
    NextIs { s with arrivals := [atOnce (.write (s.params.base + 0x2E04) 4 7)] }
      (.write (s.params.base + 0x2E04) 4 7) [] :=
  ⟨by decide, by decide, by decide, by decide, nextIs_atOnce _ _ _⟩

theorem witness_HostCannotTouchRunningCommand :
    busy.busy = true ∧ (opWr busy.params 0x1000 6 ≠ .reset) ∧
    (nextOf (busy.perform (opWr busy.params 0x1000 6))).isSome = true := by decide

/-- Each range at its ends. -/
theorem witness_WindowLayout :
    [0x0014, 0x0FFF, 0x3600, 0x3FFF].all (fun off => targetOf off == .reserved) = true ∧
    targetOf 0x1000 = .data 0 0 ∧ targetOf 0x2FFC = .data 15 127 ∧ targetOf 0x3000 = .key .p 0 ∧
    targetOf 0x31FC = .key .p 127 ∧ targetOf 0x3200 = .key .q 0 ∧ targetOf 0x35FC = .key .e 127 := by decide

/-- Both ways to be refused, at the last offset of the window and at the first. -/
theorem witness_OtherAccessesAreRefused :
    (0x3FFF < 0x4000 ∧ (4 ≠ 4 ∨ 0x3FFF % 4 ≠ 0)) ∧ 0 < 0x4000 ∧ (8 ≠ 4 ∨ 0 % 4 ≠ 0) := by decide

theorem witness_ReadsChangeNothing : (nextOf (busy.perform (.read 0x3400 4))).isSome = true := by decide

theorem witness_WordsOfARegister : 2 ≠ 1 ∧ 1 < 2 ∧ 2 ^ 64 - 1 < 2 ^ (32 * 2) := by decide

/-- The last backed word of W = 64. -/
theorem witness_DataWordAccess :
    (made 64 [] (0, 0, 0)).busy = false ∧ 1 < (made 64 [] (0, 0, 0)).params.NW ∧ 1 < 128 := by decide

theorem witness_KeyWordAccess :
    let s := made 4096 [] (0, 0, 0)
    s.busy = false ∧ 127 < s.params.NW ∧ 127 < 128 ∧ s.klock = false ∧
    ({ s with klock := true } : State).klock = true := by decide

/-- A reserved offset at each end, and the first unbacked word of a data and of a key register. -/
theorem witness_UnbackedWordsAreZero :
    targetOf 0x0014 = .reserved ∧ targetOf 0x3FFC = .reserved ∧ targetOf 0x2E04 = .data 15 1 ∧
    targetOf 0x3404 = .key .e 1 ∧ busy.params.NW ≤ 1 := by decide

theorem witness_BusyReadsAreFree : busy.busy = true ∧ 0 < busy.params.NW ∧ 0 < 128 := by decide

/-- The smallest and the largest width. -/
theorem witness_CsrReads : (made 32 [] (0, 0, 0)).params.wf ∧ (made 4096 [] (0, 0, 0)).params.wf := by decide

/-- A data and a key register at the largest value of W = 64. -/
theorem witness_StxReadsTheValue :
    [RegName.data 15, .key .e].all (fun x =>
      let s : State := made 64 [(15, 2 ^ 64 - 1)] (0, 0, 2 ^ 64 - 1)
      let s' : State := { s with arrivals := (opStx s.params x).map atOnce }
      decide (s'.params.wf) && s'.busy == false && decide (s'.named x < 2 ^ s'.params.W) &&
        s'.arrivals.length == 2 && s'.named x == 2 ^ 64 - 1) = true := by decide

/-- A data register, a key register and a locked key register, at the largest value of W = 64. -/
theorem witness_LdxLoadsTheValue :
    [(RegName.data 1, true), (.key .p, false), (.key .p, true)].all (fun (x, lock) =>
      let s : State := { made 64 [(1, 5)] (5, 0, 0) with klock := lock }
      let s' : State := { s with arrivals := (opLdx s.params x (2 ^ 64 - 1)).map atOnce }
      decide (s'.params.wf) && s'.busy == false && decide (s'.named x < 2 ^ s'.params.W) &&
        decide (2 ^ 64 - 1 < 2 ^ s'.params.W) && s'.klock == lock && s'.arrivals.length == 2) = true := by decide

theorem witness_ResetInput : NextIs { busy with arrivals := [atOnce .reset] } .reset [] := nextIs_atOnce _ _ _

theorem witness_NoKeyAfterReset :
    (nextOf (busy.perform .reset)).isSome = true ∧ isComposite (.enc 1 0) = true ∧ isComposite (.dec 2 1) = true := by
  decide

/-- A step of a locked machine that is no reset: a refused key write. -/
theorem witness_KeyLockHolds :
    let s : State := { idle with klock := true, arrivals := [atOnce (opWr idle.params 0x3000 99)] }
    s.klock = true ∧ (nextOf (step s)).isSome = true ∧ ∀ rest, ¬ NextIs s .reset rest := by
  refine ⟨by decide, by decide, ?_⟩
  rintro rest ⟨after, h, -⟩
  simp [atOnce, opWr] at h

/-- ACCERR by a write while BUSY = 1, and by a write to a locked key. -/
theorem witness_AccErrCauses :
    busy.accerr = false ∧
    (nextOf (step { busy with arrivals := [atOnce (opWr busy.params 0x1000 6)] })).map (fun t => t.accerr) =
      some true ∧
    (nextOf (step { idle with klock := true, arrivals := [atOnce (opWr idle.params 0x3000 99)] })).map
      (fun t => t.accerr) = some true := by decide

/-- BUSY goes from 0 to 1, and from 1 to 0 by completion and by reset. -/
theorem witness_BusyChanges :
    idle.busy = false ∧
    (nextOf (step { idle with arrivals := [atOnce (opCmd idle.params (.enc 1 0))] })).map State.busy = some true ∧
    busy.busy = true ∧ (nextOf (step busy)).map State.busy = some false ∧
    (nextOf (step { busy with arrivals := [atOnce .reset] })).map State.busy = some false := by decide

/-- DONE goes up by completion and by an illegal word, and down by acceptance, by W1C and by reset. -/
theorem witness_DoneChanges :
    busy.done = false ∧ (nextOf (step busy)).map State.done = some true ∧
    (nextOf (step { idle with arrivals := [atOnce (opCmdw idle.params 0)] })).map State.done = some true ∧
    [opCmd idle.params (.enc 1 0), opAck idle.params, .reset].all (fun e =>
      (nextOf (step { idle with done := true, arrivals := [atOnce e] })).map State.done == some false) = true := by
  decide

theorem witness_ResetMeetsInv : Params.default.wf := by decide

theorem witness_StepKeepsInv : Inv busy ∧ (nextOf (step busy)).isSome = true := ⟨inv_busy, by decide⟩

/-- Both clauses: a completion consumes nothing, an event is consumed. -/
theorem witness_StepConsumesInOrder :
    (nextOf (step busy)).isSome = true ∧
    (nextOf (step { busy with arrivals := [atOnce .reset] })).map (fun t => t.arrivals) = some [] := by decide

theorem witness_NeverStops : Inv busy ∧ busy.AllSelect ∧ Inv idle ∧ idle.AllSelect :=
  ⟨inv_busy, by intro a h; simp [busy, running, State.loadCommand] at h, inv_idle, by
    intro a h
    have h' : idle.arrivals = [] := by decide
    rw [h'] at h; cases h⟩

/-- A running command, with a host read still to come. -/
theorem witness_CompletionComes :
    let s : State := { busy with arrivals := [atOnce (opRd busy.params 0x00C)] }
    Inv s ∧ s.AllSelect ∧ s.busy = true ∧ ∀ a ∈ s.arrivals, a.event ≠ .reset := by
  refine ⟨⟨inv_busy.params, ⟨inv_busy.inRange.1, fun k => by cases k <;> decide⟩, inv_busy.running, inv_busy.clear,
    inv_busy.stage⟩, ?_, by decide, ?_⟩
  · intro a h
    obtain rfl := List.mem_singleton.mp h
    decide
  · intro a h
    obtain rfl := List.mem_singleton.mp h
    decide

theorem witness_RunsEnd : Inv busy ∧ busy.AllSelect := ⟨witness_NeverStops.1, witness_NeverStops.2.1⟩

/-- Just below and just above a window, and an idle machine. -/
theorem witness_ModelStops :
    let s : State := { idle with params := { Params.default with base := 0x4000 } }
    (0x3FFF < s.params.base) ∧ s.params.base + 0x4000 ≤ 0x8000 ∧ idle.busy = false := by decide

end Sys2Proof.Tests
end

section
/-! PROOFS. The invariant holds after reset, and every step keeps it: a host event acts on few of the
fields that the invariant speaks of, and a completion writes a value below 2^W or reports a stage of its
code. -/

namespace Sys2Proof.Machine

/-! What a command function answers, as a postcondition that is sequenced like the function's parts. -/

/-- A success yields a value with `P`; a failure is reported with a stage of its code (R201, R202). -/
def CmdOutcome.Meets (P : Nat → Prop) : CmdOutcome → Prop
  | .ok v => P v
  | .okNoDest => True
  | .fail code stage => stage ∈ code.stages

@[simp] theorem CmdOutcome.meets_ok {P : Nat → Prop} {v : Nat} : (CmdOutcome.ok v).Meets P ↔ P v := Iff.rfl
@[simp] theorem CmdOutcome.meets_okNoDest {P : Nat → Prop} : CmdOutcome.okNoDest.Meets P := trivial
@[simp] theorem CmdOutcome.meets_fail {P : Nat → Prop} {c : ErrCode} {st : Stage} :
    (CmdOutcome.fail c st).Meets P ↔ st ∈ c.stages := Iff.rfl

theorem CmdOutcome.Meets.mono {P Q : Nat → Prop} {o : CmdOutcome} (h : o.Meets P) (hPQ : ∀ v, P v → Q v) :
    o.Meets Q := by
  cases o with
  | ok v => exact hPQ v h
  | okNoDest => trivial
  | fail c st => exact h

theorem CmdOutcome.Meets.andThen {P Q : Nat → Prop} {o : CmdOutcome} {k : Nat → CmdOutcome}
    (h : o.Meets P) (hk : ∀ v, P v → (k v).Meets Q) : (o.andThen k).Meets Q := by
  cases o with
  | ok v => exact hk v h
  | okNoDest => trivial
  | fail c st => exact h

theorem CmdOutcome.Meets.gate {P Q : Nat → Prop} {o k : CmdOutcome} (h : o.Meets P) (hk : k.Meets Q) :
    (o.gate k).Meets Q := by
  cases o with
  | ok v => exact hk
  | okNoDest => exact hk
  | fail c st => exact h

theorem vmul_meets {x y : Nat} {st : Stage} (hst : st ∈ ErrCode.badarg.stages) :
    (vmul x y st).Meets (0 < ·) := by
  unfold vmul
  split
  · exact hst
  · next h =>
    obtain ⟨hx, hy⟩ := not_or.mp h
    exact Nat.mul_pos (Nat.pos_of_ne_zero hx) (Nat.pos_of_ne_zero hy)

theorem vsub_meets {x y : Nat} {st : Stage} (hst : st ∈ ErrCode.badarg.stages) :
    (vsub x y st).Meets (· ≤ x) := by
  unfold vsub
  split
  · exact hst
  · exact Nat.sub_le x y

/-- A totient is not zero: its last part is a validated multiply (R145). -/
theorem totient_meets {p q : Nat} {st : Stage} (hst : st ∈ ErrCode.badarg.stages) :
    (totient p q st).Meets (0 < ·) :=
  (vsub_meets hst).andThen fun _ _ => (vsub_meets hst).andThen fun _ _ => vmul_meets hst

theorem fit_meets {W t : Nat} {st : Stage} (hst : st ∈ ErrCode.overflow.stages) :
    (fit W t st).Meets fun v => v = t ∧ v < 2 ^ W := by
  unfold fit
  split
  · exact hst
  · next h => exact ⟨rfl, Nat.lt_of_not_le h⟩

theorem coprime_meets {P : Nat → Prop} {x y : Nat} {st : Stage} (hst : st ∈ ErrCode.opfail.stages) :
    (coprime x y st).Meets P := by
  unfold coprime
  split
  · trivial
  · exact hst

/-- Every coefficient of the loop of R165 is reduced modulo m, the first pair's `t1 = 1` apart: with
m = 1 it is not, but then `r1 = 0` and the loop answers `t0`. -/
theorem extEuclidLoop_snd_lt {m : Nat} (n r0 r1 t0 t1 : Nat) (h0 : t0 < m) (h1 : r1 ≠ 0 → t1 < m) :
    (extEuclidLoop m n r0 r1 t0 t1).2 < m := by
  induction n generalizing r0 r1 t0 t1 with
  | zero => exact h0
  | succ n ih =>
    unfold extEuclidLoop
    split
    · exact h0
    · next hr => exact ih _ _ _ _ (h1 hr) fun _ => Nat.mod_lt _ (Nat.zero_lt_of_lt h0)

theorem extEuclid_snd_lt {x m : Nat} (hm : 0 < m) : (extEuclid x m).2 < m :=
  extEuclidLoop_snd_lt m m (x % m) 0 1 hm fun hr => by
    have := Nat.mod_lt x hm
    omega

theorem modinv_meets {x m : Nat} {st : Stage} (hzero : m = 0 → st ∈ ErrCode.badarg.stages)
    (hst : st ∈ ErrCode.opfail.stages) : (modinv x m st).Meets (· < m) := by
  unfold modinv
  split
  · next hm => exact hzero hm
  · next hm =>
    split
    · exact hst
    · exact extEuclid_snd_lt (Nat.pos_of_ne_zero hm)

theorem squareMultiply_lt {m : Nat} (b k i acc : Nat) (h : acc < m) : squareMultiply b k m i acc < m := by
  have hm : 0 < m := Nat.zero_lt_of_lt h
  induction i generalizing acc with
  | zero => exact h
  | succ i ih =>
    refine ih _ ?_
    split
    · exact Nat.mod_lt _ hm
    · exact Nat.mod_lt _ hm

theorem modexp_lt {m : Nat} (b k : Nat) (hm : 0 < m) : modexp b k m < m :=
  squareMultiply_lt _ _ _ _ (Nat.mod_lt _ hm)

/-- What stages 1 and 2 hand on: a modulus from 1 to 2^W - 1, and a totient that is not zero. -/
theorem keyStages_meets {P : Nat → Prop} {W p q : Nat} {rest : Nat → Nat → CmdOutcome}
    (h : ∀ n ph, 0 < n → n < 2 ^ W → 0 < ph → (rest n ph).Meets P) : (keyStages W p q rest).Meets P := by
  refine (vmul_meets (by decide)).andThen fun n hn => (fit_meets (by decide)).andThen fun n' hn' => ?_
  obtain ⟨rfl, hW⟩ := hn'
  exact (totient_meets (by decide)).andThen fun ph hph => h n' ph hn hW hph

theorem fMexp_meets {base k m : Nat} : (fMexp base k m).Meets (· < m) := by
  unfold fMexp
  split
  · exact CmdOutcome.meets_fail.mpr (by decide)
  · next hm => exact modexp_lt base k (Nat.pos_of_ne_zero hm)

theorem fEnc_meets {W msg p q e : Nat} : (fEnc W msg p q e).Meets (· < 2 ^ W) :=
  keyStages_meets fun _ _ hn hW _ =>
    (coprime_meets (P := fun _ => True) (by decide)).gate ((modexp_lt msg e hn).trans hW)

/-- DEC reports no BADARG at stage 3, since the totient is not zero. -/
theorem fDec_meets {W ct p q e : Nat} : (fDec W ct p q e).Meets (· < 2 ^ W) :=
  keyStages_meets fun _ _ hn hW hph =>
    (modinv_meets (fun h => absurd h hph.ne') (by decide)).andThen fun d _ => (modexp_lt ct d hn).trans hW

/-- On a snapshot in range, every command's value is in range and its stage is one of its code. -/
theorem outcomeOf_meets {W : Nat} {r : InFlight} (i : Instr)
    (ha : r.a < 2 ^ W) (hb : r.b < 2 ^ W) (hc : r.c < 2 ^ W) : (outcomeOf W r i).Meets (· < 2 ^ W) := by
  cases i with
  | mul rd rs1 rs2 =>
    exact (vmul_meets (by decide)).andThen fun t _ => (fit_meets (by decide)).mono fun _ h => h.2
  | sub rd rs1 rs2 => exact (vsub_meets (by decide)).mono fun _ h => h.trans_lt ha
  | tot rd rs1 rs2 =>
    exact (totient_meets (by decide)).andThen fun t _ => (fit_meets (by decide)).mono fun _ h => h.2
  | copr rs1 rs2 => exact coprime_meets (by decide)
  | minv rd rs1 rs2 => exact (modinv_meets (fun _ => by decide) (by decide)).mono fun _ h => h.trans hb
  | mexp rd rs1 rs2 rs3 => exact fMexp_meets.mono fun _ h => h.trans hc
  | enc rd rs1 => exact fEnc_meets
  | dec rd rs1 => exact fDec_meets

/-! A written word. -/

/-- A register below 2^W stays so when one of its NW words is replaced (R63, R64). -/
theorem replaceWord_lt {p : Params} (hp : p.wf) {x j : Nat} (v : Word) (hx : x < 2 ^ p.W) (hj : j < p.NW) :
    replaceWord x j v < 2 ^ p.W := by
  obtain ⟨k, hk⟩ : ∃ k, p.W = 32 * (j + 1) + k := by
    refine Nat.exists_eq_add_of_le ?_
    rw [Params.NW] at hj
    omega
  rw [hk] at hx ⊢
  have high : x / 2 ^ (32 * (j + 1)) < 2 ^ k := Nat.div_lt_of_lt_mul (by rwa [← pow_add])
  have upper : v.toNat + 2 ^ 32 * (x / 2 ^ (32 * (j + 1))) < 2 ^ 32 * 2 ^ k :=
    Nat.add_mul_lt_mul_of_lt_of_lt v.isLt high
  have lower : x % 2 ^ (32 * j) < 2 ^ (32 * j) := Nat.mod_lt _ (Nat.two_pow_pos _)
  calc replaceWord x j v
      = x % 2 ^ (32 * j) + 2 ^ (32 * j) * (v.toNat + 2 ^ 32 * (x / 2 ^ (32 * (j + 1)))) := by
        rw [replaceWord, Nat.mul_comm _ (2 ^ (32 * j)), Nat.mul_comm _ (2 ^ 32)]
    _ < 2 ^ (32 * j) * (2 ^ 32 * 2 ^ k) := Nat.add_mul_lt_mul_of_lt_of_lt lower upper
    _ = 2 ^ (32 * (j + 1) + k) := by ring

theorem State.InRange.setReg {s : State} (h : s.InRange) (i : RegIdx) {v : Nat} (hv : v < 2 ^ s.params.W) :
    (s.setReg i v).InRange := by
  refine ⟨fun j => ?_, fun k => by simpa using h.2 k⟩
  rw [State.reg_setReg, State.params_setReg]
  split
  · exact hv
  · exact h.1 j

theorem State.InRange.setKey {s : State} (h : s.InRange) (k : KeyReg) {v : Nat} (hv : v < 2 ^ s.params.W) :
    (s.setKey k v).InRange := by
  refine ⟨fun i => by simpa using h.1 i, fun l => ?_⟩
  rw [State.key_setKey, State.params_setKey]
  split
  · exact hv
  · exact h.2 l

/-! The invariant under each operation. -/

/-- While no command runs, the invariant is the ranges and the stage. -/
theorem Inv.of_idle {s : State} (hb : s.busy = false) (hp : s.params.wf) (hr : s.InRange)
    (hs : s.estage ∈ s.errcode.stages) : Inv s where
  params := hp
  inRange := hr
  running r h := by simp [State.busy, h] at hb
  clear h := by simp [hb] at h
  stage := hs

/-- The invariant does not speak of CTRL, ACCERR, the events to come, or the model's own fields. -/
theorem Inv.withOther {s : State} (h : Inv s) (ie klock accerr : Bool) (arrivals : List Arrival)
    (reply : Option Reply) (draws : Nat) :
    Inv { s with ie, klock, accerr, arrivals, reply, draws } :=
  ⟨h.params, h.inRange, h.running, h.clear, h.stage⟩

theorem Inv.replyWith {s : State} (h : Inv s) (r : Reply) : Inv (s.replyWith r) := h.withOther ..

theorem Inv.refuseWrite {s : State} (h : Inv s) : Inv s.refuseWrite := h.withOther ..

theorem Inv.writeCtrl {s : State} (h : Inv s) (v : Word) : Inv (s.writeCtrl v) := h.withOther ..

theorem Inv.writeStatus {s : State} (h : Inv s) (v : Word) : Inv (s.writeStatus v) where
  params := h.params
  inRange := h.inRange
  running := h.running
  clear hb := by
    obtain ⟨hdone, hcode, hstage⟩ := h.clear hb
    exact ⟨by simp [State.writeStatus, hdone], hcode, hstage⟩
  stage := h.stage

theorem Inv.setReg {s : State} (h : Inv s) (hb : s.busy = false) (i : RegIdx) {v : Nat}
    (hv : v < 2 ^ s.params.W) : Inv (s.setReg i v) :=
  .of_idle hb h.params (h.inRange.setReg i hv) h.stage

theorem Inv.setKey {s : State} (h : Inv s) (hb : s.busy = false) (k : KeyReg) {v : Nat}
    (hv : v < 2 ^ s.params.W) : Inv (s.setKey k v) :=
  .of_idle (by simpa using hb) (by simpa using h.params) (h.inRange.setKey k hv) (by simpa using h.stage)

theorem Inv.accept {s : State} (h : Inv s) {w : Word} (hw : legal w = true) : Inv (s.accept w) where
  params := h.params
  inRange := h.inRange
  running _ hr := ⟨hw, (Option.some.inj hr).symm⟩
  clear _ := ⟨rfl, rfl, rfl⟩
  stage := List.mem_singleton_self _

theorem Inv.acceptIllegal {s : State} (h : Inv s) (hb : s.busy = false) (w : Word) : Inv (s.acceptIllegal w) :=
  .of_idle hb h.params h.inRange (List.mem_singleton_self _)

theorem Inv.offerCommand {s : State} (h : Inv s) (w : Word) : Inv (s.offerCommand w) := by
  obtain ⟨-, he⟩ | ⟨-, hw, he⟩ | ⟨hb, -, he⟩ := s.offerCommand_cases w
  · rw [he]; exact h.refuseWrite
  · rw [he]; exact h.accept hw
  · rw [he]; exact h.acceptIllegal hb w

theorem Inv.writeTarget {s : State} (h : Inv s) (t : Target) (v : Word) : Inv (s.writeTarget t v) := by
  obtain ⟨-, he⟩ | ⟨-, he⟩ | ⟨-, he⟩ | ⟨i, j, -, hj, hb, he⟩ | ⟨k, j, -, hj, hb, -, he⟩ | ⟨-, he⟩ | he :=
    s.writeTarget_cases t v
  · rw [he]; exact h.writeCtrl v
  · rw [he]; exact h.writeStatus v
  · rw [he]; exact h.offerCommand v
  · rw [he]; exact h.setReg hb i (replaceWord_lt h.params v (h.inRange.1 i) hj)
  · rw [he]; exact h.setKey hb k (replaceWord_lt h.params v (h.inRange.2 k) hj)
  · rw [he]; exact h.refuseWrite
  · rw [he]; exact h

theorem inv_resetOf {p : Params} (hp : p.wf) : Inv (State.resetOf p) :=
  .of_idle rfl hp ⟨fun i => by simp, fun k => by simp⟩ (List.mem_singleton_self _)

theorem Inv.hardReset {s : State} (h : Inv s) : Inv s.hardReset := (inv_resetOf h.params).withOther ..

theorem Inv.perform {s t : State} {e : HostEvent} (h : Inv s) (ht : s.perform e = .next t) : Inv t := by
  obtain ⟨a, n, -, he⟩ | ⟨a, n, v, -, he⟩ | ⟨off, v, -, -, he⟩ | ⟨-, he⟩ := State.perform_cases ht
  · rw [he]; exact h.withOther ..
  · rw [he]; exact h.replyWith _
  · rw [he]; exact (h.writeTarget _ v).replyWith _
  · rw [he]; exact h.hardReset

theorem State.InRange.complete {s : State} (h : s.InRange) (rd : Option RegIdx) {o : CmdOutcome}
    (ho : o.Meets (· < 2 ^ s.params.W)) : (s.complete rd o).InRange := by
  refine ⟨fun j => ?_, fun k => by simpa using h.2 k⟩
  rw [State.reg_complete, State.params_complete]
  cases o with
  | ok v =>
    by_cases hj : rd = some j
    · simpa [hj] using ho
    · simpa [hj] using h.1 j
  | okNoDest => exact h.1 j
  | fail c st => exact h.1 j

theorem State.estage_complete_mem_stages {P : Nat → Prop} (s : State) (rd : Option RegIdx) {o : CmdOutcome}
    (ho : o.Meets P) : (s.complete rd o).estage ∈ (s.complete rd o).errcode.stages := by
  cases o with
  | ok v => exact List.mem_singleton_self _
  | okNoDest => exact List.mem_singleton_self _
  | fail c st => exact ho

theorem Inv.complete {s : State} (h : Inv s) (rd : Option RegIdx) {o : CmdOutcome}
    (ho : o.Meets (· < 2 ^ s.params.W)) : Inv (s.complete rd o) :=
  .of_idle (by simp) (by simpa using h.params) (h.inRange.complete rd ho) (s.estage_complete_mem_stages rd ho)

/-- The running command works on a snapshot of registers in range (R43, R47), so its outcome is sound. -/
theorem Inv.outcomeOf_meets {s : State} (h : Inv s) {r : InFlight} (hr : s.inflight = some r) (i : Instr) :
    (outcomeOf s.params.W r i).Meets (· < 2 ^ s.params.W) := by
  obtain ⟨-, rfl⟩ := h.running r hr
  exact Machine.outcomeOf_meets i (h.inRange.1 _) (h.inRange.1 _) (h.inRange.1 _)

/-- Settles O52, along what a step can do: nothing, a completion, or the next host event. -/
theorem stepKeepsInv : Obligations.StepKeepsInv := by
  intro s t h hstep
  obtain ⟨-, -, he⟩ | ⟨r, i, hr, -, -, he⟩ | ⟨a, rest, -, -, hperform⟩ := step_cases hstep
  · rw [he]; exact h
  · rw [he]; exact h.complete _ (h.outcomeOf_meets hr i)
  · have htail : Inv { s with arrivals := rest } := h.withOther ..
    exact htail.perform hperform

/-- Settles O51: under allowed parameters, of which `Params.default` is one. -/
theorem resetMeetsInv : Obligations.ResetMeetsInv :=
  ⟨fun _ hp => inv_resetOf hp, inv_resetOf (by decide)⟩

end Sys2Proof.Machine
end

section
/-! PROOFS. The register window as a host sees it: what an aligned 32-bit access does, which word a slot's
offset selects, and the accesses to data words, key words and CSRs that follow. -/

namespace Sys2Proof.Machine

/-! An aligned 32-bit access of the window. -/

theorem inWindow_base_add {p : Params} {off : Nat} (h : off < windowSize) : inWindow p (p.base + off) = true := by
  simp [inWindow, h]

theorem State.perform_write {off : Nat} (h : off < windowSize) (hal : off % 4 = 0) (v : Word) (s : State) :
    s.perform (.write (s.params.base + off) 4 v) = .next ((s.writeTarget (targetOf off) v).replyWith .done) := by
  simp [State.perform, inWindow_base_add h, State.hostWrite, answers, hal]

theorem State.perform_read {off : Nat} (h : off < windowSize) (hal : off % 4 = 0) (s : State) :
    s.perform (.read (s.params.base + off) 4) =
      .next ((s.readTarget (targetOf off)).2.replyWith (.data (s.readTarget (targetOf off)).1)) := by
  simp [State.perform, inWindow_base_add h, State.hostRead, answers, hal]

/-! The words of a slot (R62, R63). -/

theorem slotOf_add_lt_windowSize (x : RegName) {j : Nat} (hj : j < 128) : slotOf x + 4 * j < windowSize := by
  cases x with
  | data i => simp only [slotOf, dataSlot, windowSize]; omega
  | key k => cases k <;> simp only [slotOf, keySlot, windowSize] <;> omega

theorem slotOf_add_aligned (x : RegName) (j : Nat) : (slotOf x + 4 * j) % 4 = 0 := by
  cases x with
  | data i => simp only [slotOf, dataSlot]; omega
  | key k => cases k <;> simp only [slotOf, keySlot] <;> omega

/-- Word j of a named register, as the window's layout selects it. -/
def wordTarget : RegName → Nat → Target
  | .data i, j => .data i j
  | .key k, j => .key k j

theorem targetOf_dataSlot (i : RegIdx) {j : Nat} (hj : j < 128) : targetOf (dataSlot i + 4 * j) = .data i j := by
  have hi : Fin.ofNat 16 ((dataSlot i + 4 * j - 0x1000) / 0x200) = i := by
    apply Fin.ext
    simp only [Fin.ofNat, dataSlot]
    omega
  have hword : (dataSlot i + 4 * j) % 0x200 / 4 = j := by simp only [dataSlot]; omega
  have lower : 0x1000 ≤ dataSlot i + 4 * j := by simp only [dataSlot]; omega
  have upper : dataSlot i + 4 * j < 0x3000 := by simp only [dataSlot]; omega
  generalize dataSlot i + 4 * j = off at *
  simp only [targetOf, hi, hword]
  grind

theorem targetOf_keySlot (k : KeyReg) {j : Nat} (hj : j < 128) : targetOf (keySlot k + 4 * j) = .key k j := by
  cases k <;> simp only [keySlot, targetOf] <;> grind

theorem targetOf_slotOf (x : RegName) {j : Nat} (hj : j < 128) : targetOf (slotOf x + 4 * j) = wordTarget x j := by
  cases x with
  | data i => exact targetOf_dataSlot i hj
  | key k => exact targetOf_keySlot k hj

/-! A backed word while no command runs (R63, R70, R71). -/

theorem State.readTarget_wordTarget {s : State} (hb : s.busy = false) {j : Nat} (hj : j < s.params.NW)
    (x : RegName) :
    s.readTarget (wordTarget x j) = (wordOf (s.named x) j, s) := by
  cases x <;> simp [wordTarget, State.readTarget, State.readRegWord, hb, hj]

theorem State.writeTarget_wordTarget {s : State} (hb : s.busy = false) {j : Nat} (hj : j < s.params.NW)
    (x : RegName) (hk : ∀ k, x = .key k → s.klock = false) (v : Word) :
    s.writeTarget (wordTarget x j) v = s.setNamed x (replaceWord (s.named x) j v) := by
  cases x with
  | data i => simp [wordTarget, State.writeTarget, hb, hj]
  | key k => simp [wordTarget, State.writeTarget, hb, hj, hk k rfl]

theorem State.writeTarget_lockedKey {s : State} (hk : s.klock = true) {j : Nat} (hj : j < s.params.NW) (k : KeyReg)
    (v : Word) : s.writeTarget (wordTarget (.key k) j) v = s.refuseWrite := by
  simp [wordTarget, State.writeTarget, hk, hj]

section Word
variable {s : State} (x : RegName) {j : Nat} (hb : s.busy = false) (hj : j < s.params.NW) (hslot : j < 128)
include hb hj hslot

theorem State.perform_readWord : s.perform (.read (s.params.base + (slotOf x + 4 * j)) 4) =
    .next (s.replyWith (.data (wordOf (s.named x) j))) := by
  rw [State.perform_read (slotOf_add_lt_windowSize x hslot) (slotOf_add_aligned x j), targetOf_slotOf x hslot,
    State.readTarget_wordTarget hb hj]

theorem State.perform_writeWord (hk : ∀ k, x = .key k → s.klock = false) (v : Word) :
    s.perform (.write (s.params.base + (slotOf x + 4 * j)) 4 v) =
      .next ((s.setNamed x (replaceWord (s.named x) j v)).replyWith .done) := by
  rw [State.perform_write (slotOf_add_lt_windowSize x hslot) (slotOf_add_aligned x j), targetOf_slotOf x hslot,
    State.writeTarget_wordTarget hb hj x hk]

end Word

theorem State.perform_writeLockedKey {s : State} (hk : s.klock = true) (k : KeyReg) {j : Nat}
    (hj : j < s.params.NW) (hslot : j < 128) (v : Word) :
    s.perform (.write (s.params.base + (slotOf (.key k) + 4 * j)) 4 v) = .next (s.refuseWrite.replyWith .done) := by
  rw [State.perform_write (slotOf_add_lt_windowSize _ hslot) (slotOf_add_aligned _ j), targetOf_slotOf _ hslot,
    State.writeTarget_lockedKey hk hj]

/-- Settles O35: a data register is a named register. -/
theorem dataWordAccess : Obligations.DataWordAccess := by
  intro s i j v hb hj hslot
  exact ⟨State.perform_writeWord (.data i) hb hj hslot (by simp) v, State.perform_readWord (.data i) hb hj hslot⟩

/-- Settles O36: a key register is a named register, which KLOCK guards against writes. -/
theorem keyWordAccess : Obligations.KeyWordAccess := by
  intro s k j v hb hj hslot
  exact ⟨fun hk => State.perform_writeWord (.key k) hb hj hslot (fun _ _ => hk) v,
    fun hk => State.perform_writeLockedKey hk k hj hslot v,
    State.perform_readWord (.key k) hb hj hslot⟩

/-! The CSRs (R28 to R41). -/

/-- The fields of R29. -/
theorem extractLsb'_cfgWord (p : Params) :
    (cfgWord p).extractLsb' 0 16 = BitVec.ofNat 16 p.W ∧ (cfgWord p).extractLsb' 16 8 = 16 ∧
      (cfgWord p).extractLsb' 24 8 = 1 := by
  refine ⟨?_, ?_, ?_⟩
  · exact (BitVec.extractLsb'_append_eq_of_add_le le_rfl).trans BitVec.extractLsb'_eq_self
  · exact BitVec.extractLsb'_append_eq_of_le le_rfl
  · exact BitVec.extractLsb'_append_eq_of_le (by omega)

/-- The layout of R30. -/
theorem State.getLsbD_ctrlWord (s : State) (i : Nat) :
    s.ctrlWord.getLsbD i = if i = 0 then s.ie else if i = 1 then s.klock else false := by
  unfold State.ctrlWord
  change BitVec.getLsbD (w := 30 + 1 + 1) _ i = _
  simp only [BitVec.getLsbD_append, BitVec.getLsbD_ofBool]
  grind

/-- The layout of R34. -/
theorem State.getLsbD_statusWord (s : State) (i : Nat) : s.statusWord.getLsbD i =
    if i = 0 then s.busy else if i = 1 then s.done else if i = 2 then s.accerr else if i = 3 then s.irq
    else if i < 8 then false else if i < 12 then s.errcode.code.getLsbD (i - 8)
    else if i < 16 then s.estage.code.getLsbD (i - 12) else false := by
  unfold State.statusWord
  change BitVec.getLsbD (w := 16 + 4 + 4 + 4 + 1 + 1 + 1 + 1) _ i = _
  simp only [BitVec.getLsbD_append, BitVec.getLsbD_ofBool, BitVec.ofNat_eq_ofNat, BitVec.getLsbD_zero]
  grind (splits := 20)

/-- A field of a word, from the word's layout. -/
theorem extractLsb'_eq_of_getLsbD {n len start : Nat} {w : BitVec n} {f : BitVec len}
    (h : ∀ i < len, w.getLsbD (start + i) = f.getLsbD i) : w.extractLsb' start len = f :=
  BitVec.eq_of_getLsbD_eq fun i hi => by simp only [BitVec.getLsbD_extractLsb', hi, decide_true, Bool.true_and, h]

theorem State.extractLsb'_ctrlWord (s : State) : s.ctrlWord.extractLsb' 2 30 = 0 :=
  extractLsb'_eq_of_getLsbD fun i _ => by rw [State.getLsbD_ctrlWord]; grind

theorem State.extractLsb'_statusWord (s : State) :
    s.statusWord.extractLsb' 4 4 = 0 ∧ s.statusWord.extractLsb' 8 4 = s.errcode.code ∧
      s.statusWord.extractLsb' 12 4 = s.estage.code ∧ s.statusWord.extractLsb' 16 16 = 0 := by
  refine ⟨?_, ?_, ?_, ?_⟩ <;>
  · apply extractLsb'_eq_of_getLsbD
    intro i hi
    rw [State.getLsbD_statusWord]
    grind

/-- Settles O39: each CSR answers its word, whose fields its layout gives. -/
theorem csrReads : Obligations.CsrReads := by
  rintro s ⟨-, -, hW, -⟩
  have read (off : Nat) (h : off < windowSize) (hal : off % 4 = 0) := State.perform_read h hal s
  obtain ⟨width, nreg, version⟩ := extractLsb'_cfgWord s.params
  obtain ⟨rsv, errcode, estage, high⟩ := s.extractLsb'_statusWord
  refine ⟨read 0x000 (by decide) (by decide), read 0x010 (by decide) (by decide),
    ⟨cfgWord s.params, read 0x004 (by decide) (by decide), ?_, nreg, version⟩,
    ⟨s.ctrlWord, read 0x008 (by decide) (by decide), s.getLsbD_ctrlWord 0, s.getLsbD_ctrlWord 1,
      s.extractLsb'_ctrlWord⟩,
    ⟨s.statusWord, read 0x00C (by decide) (by decide), s.getLsbD_statusWord 0, s.getLsbD_statusWord 1,
      s.getLsbD_statusWord 2, s.getLsbD_statusWord 3, rsv, high, errcode.trans ?_, estage.trans ?_⟩⟩
  · rw [width, BitVec.toNat_ofNat, Nat.mod_eq_of_lt (by omega)]
  · cases s.errcode <;> rfl
  · cases s.estage <;> rfl

/-- KLOCK is write-1-to-set (R31). -/
theorem State.writeCtrl_eq (s : State) (v : Word) :
    s.writeCtrl v = { s with ie := v.getLsbD 0, klock := if v.getLsbD 1 then true else s.klock } := by
  have w1s (old bit : Bool) : (old || bit) = if bit then true else old := by cases bit <;> simp
  rw [State.writeCtrl, w1s]

/-- DONE and ACCERR are write-1-to-clear (R35). -/
theorem State.writeStatus_eq (s : State) (v : Word) :
    s.writeStatus v = { s with
      done := if v.getLsbD 1 then false else s.done, accerr := if v.getLsbD 2 then false else s.accerr } := by
  have w1c (old bit : Bool) : (old && !bit) = if bit then false else old := by cases bit <;> simp
  rw [State.writeStatus, w1c, w1c]

/-- Settles O40, on the forms of the two writes with an `if` for each bit. -/
theorem csrWrites : Obligations.CsrWrites := by
  intro s v
  have write (off : Nat) (h : off < windowSize) (hal : off % 4 = 0) := State.perform_write h hal v s
  refine ⟨?_, ?_, write 0x000 (by decide) (by decide), write 0x004 (by decide) (by decide)⟩
  · refine (write 0x008 (by decide) (by decide)).trans ?_
    rw [show targetOf 0x008 = .ctrl from rfl, State.writeTarget, State.writeCtrl_eq]
    rfl
  · refine (write 0x00C (by decide) (by decide)).trans ?_
    rw [show targetOf 0x00C = .status from rfl, State.writeTarget, State.writeStatus_eq]
    rfl

/-- Settles O50: bit 3 of the layout of R34, and the definition of what is driven. -/
theorem irqLevel : Obligations.IrqLevel := by
  intro s line
  exact ⟨rfl, s.getLsbD_statusWord 3, by simp [State.drives, State.irq]⟩

theorem State.ctrlWord_resetOf (p : Params) : (State.resetOf p).ctrlWord = 0 := by
  simp [State.ctrlWord, State.resetOf]

theorem State.statusWord_resetOf (p : Params) : (State.resetOf p).statusWord = 0 := by
  simp [State.statusWord, State.resetOf, State.irq, State.busy, ErrCode.code, Stage.code]

/-- Settles O43, field by field. -/
theorem resetState : Obligations.ResetState := by
  intro p
  exact ⟨rfl, rfl, State.reg_resetOf p, State.key_resetOf p, State.ctrlWord_resetOf p,
    State.statusWord_resetOf p, rfl, rfl, rfl, rfl⟩

end Sys2Proof.Machine
end

section
/-! PROOFS. The host pseudo-operation ldx: a run of host writes, and a register whose words are replaced one
after another. -/

namespace Sys2Proof.Machine

/-- A step takes the next host event, when it comes before any completion. -/
theorem step_of_nextIs {s : State} {e : HostEvent} {rest : List Arrival} (h : Claims.NextIs s e rest) :
    step s = State.perform e { s with arrivals := rest } := by
  obtain ⟨after, ha, hb⟩ := h
  unfold step nextMove
  cases hr : s.inflight with
  | none => simp [ha]
  | some r => simp [ha, hb (by simp [State.busy, hr])]

/-- Settles O44. -/
theorem resetInput : Obligations.ResetInput := fun _ _ h => step_of_nextIs h

/-- The state with these events to come and this last answer, both the model's own fields. -/
def State.atPort (arrivals : List Arrival) (reply : Option Reply) (s : State) : State :=
  { s with arrivals, reply }

section AtPort
variable (arrivals : List Arrival) (reply : Option Reply) (s : State)

@[simp] theorem State.params_atPort : (s.atPort arrivals reply).params = s.params := rfl
@[simp] theorem State.klock_atPort : (s.atPort arrivals reply).klock = s.klock := rfl
@[simp] theorem State.busy_atPort : (s.atPort arrivals reply).busy = s.busy := rfl
@[simp] theorem State.named_atPort (x : RegName) : (s.atPort arrivals reply).named x = s.named x := by
  cases x with
  | data i => rfl
  | key k => cases k <;> rfl
@[simp] theorem State.setNamed_atPort (x : RegName) (v : Nat) :
    (s.atPort arrivals reply).setNamed x v = (s.setNamed x v).atPort arrivals reply := by
  cases x with
  | data i => rfl
  | key k => cases k <;> rfl

end AtPort

/-- A run starts with an event that is sent at once. -/
theorem run_atOnce {k : Nat} {e : HostEvent} {arrivals : List Arrival} {reply : Option Reply} {s t : State}
    (h : (s.atPort arrivals reply).perform e = .next t) :
    Sys2Proof.core.run (k + 1) (s.atPort (atOnce e :: arrivals) reply) = Sys2Proof.core.run k t :=
  run_of_step ((step_of_nextIs ⟨false, rfl, fun _ => rfl⟩).trans h)

/-- Writes sent at once are performed one per step: the j-th takes `u j` to `u (j + 1)`. -/
theorem run_writes {n : Nat} {e : Nat → HostEvent} {u : Nat → State} (reply : Option Reply)
    (hwrite : ∀ j ≤ n, ∀ arrivals reply,
      ((u j).atPort arrivals reply).perform (e j) = .next ((u (j + 1)).atPort arrivals (some .done))) :
    Sys2Proof.core.run (n + 1) ((u 0).atPort ((List.range (n + 1)).map fun j => atOnce (e j)) reply) =
      .next ((u (n + 1)).atPort [] (some .done)) := by
  induction n generalizing e u reply with
  | zero => exact run_atOnce (hwrite 0 le_rfl _ _)
  | succ n ih =>
    rw [List.range_succ_eq_map, List.map_cons, List.map_map, run_atOnce (hwrite 0 (Nat.zero_le _) _ _)]
    exact ih (u := fun j => u (j + 1)) (some .done) fun j hj => hwrite (j + 1) (Nat.succ_le_succ hj)

/-! Words replaced in ascending order. -/

/-- The first j words from v, the others from x. -/
def mergeWords (x v j : Nat) : Nat := v % 2 ^ (32 * j) + x / 2 ^ (32 * j) * 2 ^ (32 * j)

theorem mergeWords_zero (x v : Nat) : mergeWords x v 0 = x := by
  simp [mergeWords, Nat.mod_one]

theorem mergeWords_all {x v n : Nat} (hx : x < 2 ^ (32 * n)) (hv : v < 2 ^ (32 * n)) : mergeWords x v n = v := by
  simp [mergeWords, Nat.div_eq_of_lt hx, Nat.mod_eq_of_lt hv]

theorem replaceWord_mergeWords (x v j : Nat) :
    replaceWord (mergeWords x v j) j (wordOf v j) = mergeWords x v (j + 1) := by
  have hpow : 2 ^ (32 * (j + 1)) = 2 ^ (32 * j) * 2 ^ 32 := by rw [← pow_add]; rfl
  have hpos : 0 < 2 ^ (32 * j) := Nat.two_pow_pos _
  unfold replaceWord mergeWords wordOf
  rw [hpow, BitVec.toNat_ofNat]
  generalize 2 ^ (32 * j) = B at hpos ⊢
  have low : (v % B + x / B * B) % B = v % B := by rw [Nat.add_mul_mod_self_right, Nat.mod_mod]
  have high : (v % B + x / B * B) / B = x / B := by
    rw [Nat.add_mul_div_right _ _ hpos, Nat.div_eq_of_lt (Nat.mod_lt _ hpos), Nat.zero_add]
  rw [low, ← Nat.div_div_eq_div_mul, high, Nat.mod_mul, ← Nat.div_div_eq_div_mul]
  ring

/-! Loading a named register. -/

theorem State.setNamed_named (s : State) (x : RegName) : s.setNamed x (s.named x) = s := by
  cases x with
  | data i => simp [State.setReg, State.reg]
  | key k => cases k <;> rfl

/-- Word j of v is written to a register that holds the words of v before it. -/
theorem perform_loadWord {s : State} {x : RegName} {j : Nat} (hb : s.busy = false)
    (hk : ∀ k, x = .key k → s.klock = false) (hj : j < s.params.NW) (hslot : j < 128) (y v : Nat)
    (arrivals : List Arrival) (reply : Option Reply) :
    ((s.setNamed x (mergeWords y v j)).atPort arrivals reply).perform
        (opWr s.params (slotOf x + 4 * j) (wordOf v j)) =
      .next ((s.setNamed x (mergeWords y v (j + 1))).atPort arrivals (some .done)) := by
  have hwrite := State.perform_writeWord (s := (s.setNamed x (mergeWords y v j)).atPort arrivals reply) x
    (by simpa) (by simpa) hslot (by simpa) (wordOf v j)
  simp only [State.params_atPort, State.params_setNamed, State.named_atPort, State.named_setNamed_self,
    State.setNamed_atPort, State.setNamed_setNamed, replaceWord_mergeWords] at hwrite
  exact hwrite

/-- Settles O42: word by word, the register goes from its old value to v; a locked one refuses every word. -/
theorem ldxLoadsTheValue : Obligations.LdxLoadsTheValue := by
  rintro s x v ⟨hmod, hmin, hmax, -⟩ hb hx hv harr
  have hW : s.params.W = 32 * s.params.NW := by rw [Params.NW]; omega
  have hslot : ∀ {j}, j < s.params.NW → j < 128 := by omega
  obtain ⟨n, hn⟩ : ∃ n, s.params.NW = n + 1 := Nat.exists_eq_succ_of_ne_zero (by omega)
  have hs : s.atPort ((List.range (n + 1)).map fun j => atOnce (opWr s.params (slotOf x + 4 * j) (wordOf v j)))
      s.reply = s := by
    rw [opLdx, List.map_map, hn] at harr
    exact congrArg (s.atPort · s.reply) harr.symm
  rw [hW, hn] at hx hv
  rw [hn]
  constructor
  · intro hk
    have run := run_writes (n := n) (u := fun j => s.setNamed x (mergeWords (s.named x) v j)) s.reply
      fun j hj arrivals reply => perform_loadWord hb hk (by omega) (hslot (by omega)) _ v arrivals reply
    rw [mergeWords_zero, State.setNamed_named, hs, mergeWords_all hx hv] at run
    exact run
  · rintro k rfl hk
    have run := run_writes (n := n) (u := fun j => if j = 0 then s else s.refuseWrite)
      (e := fun j => opWr s.params (slotOf (.key k) + 4 * j) (wordOf v j)) s.reply ?_
    · rw [if_pos rfl, hs] at run
      exact run
    · intro j hj arrivals reply
      rw [if_neg j.succ_ne_zero]
      have hjNW : j < s.params.NW := by omega
      split
      · exact State.perform_writeLockedKey (s := s.atPort arrivals reply) hk k hjNW (hslot hjNW) _
      · exact State.perform_writeLockedKey (s := s.refuseWrite.atPort arrivals reply) hk k hjNW (hslot hjNW) _

end Sys2Proof.Machine
end

section
/-! PROOFS. What a host event does and what a step does, each as one list of cases, and from it what changes
the key, ACCERR, BUSY and DONE, and what a running command is safe from. -/

namespace Sys2Proof.Machine

theorem targetOf_eq_ctrl {off : Nat} (h : targetOf off = .ctrl) : off = 0x008 := by grind [targetOf]

theorem targetOf_eq_status {off : Nat} (h : targetOf off = .status) : off = 0x00C := by grind [targetOf]

theorem targetOf_eq_cmd {off : Nat} (h : targetOf off = .cmd) : off = 0x010 := by grind [targetOf]

/-- A write is refused with ACCERR (R204). -/
def State.Refuses (s : State) (t : Target) : Prop :=
  (s.busy = true ∧
    (t = .cmd ∨ (∃ i j, t = .data i j ∧ j < s.params.NW) ∨ ∃ k j, t = .key k j ∧ j < s.params.NW)) ∨
  (s.klock = true ∧ ∃ k j, t = .key k j ∧ j < s.params.NW)

/-- What a host event can do to the block (R70, R71, R220). -/
inductive HostEffect (s : State) : HostEvent → State → Prop
  /-- A read, and a write that the bus refuses or that is ignored. -/
  | quiet {e : HostEvent} (he : e ≠ .reset) (reply : Option Reply) (draws : Nat) :
      HostEffect s e { s with reply, draws }
  /-- A write to CTRL (R31). -/
  | ctrl (v : Word) : HostEffect s (.write (s.params.base + 0x008) 4 v) ((s.writeCtrl v).replyWith .done)
  /-- A write to STATUS (R35). -/
  | status (v : Word) :
      HostEffect s (.write (s.params.base + 0x00C) 4 v) ((s.writeStatus v).replyWith .done)
  /-- A legal word written to CMD (R121). -/
  | accept (v : Word) (hb : s.busy = false) (hv : legal v = true) :
      HostEffect s (.write (s.params.base + 0x010) 4 v) ((s.accept v).replyWith .done)
  /-- An illegal word written to CMD (R122). -/
  | acceptIllegal (v : Word) (hb : s.busy = false) (hv : legal v = false) :
      HostEffect s (.write (s.params.base + 0x010) 4 v) ((s.acceptIllegal v).replyWith .done)
  /-- A backed word of a data register (R63). -/
  | setReg (off : Nat) (v : Word) (i : RegIdx) (j : Nat) (ht : targetOf off = .data i j) (hj : j < s.params.NW)
      (hb : s.busy = false) :
      HostEffect s (.write (s.params.base + off) 4 v) ((s.setReg i (replaceWord (s.reg i) j v)).replyWith .done)
  /-- A backed word of a key register (R33, R63). -/
  | setKey (off : Nat) (v : Word) (k : KeyReg) (j : Nat) (ht : targetOf off = .key k j) (hj : j < s.params.NW)
      (hb : s.busy = false) (hk : s.klock = false) :
      HostEffect s (.write (s.params.base + off) 4 v) ((s.setKey k (replaceWord (s.key k) j v)).replyWith .done)
  /-- A write that only sets ACCERR (R204). -/
  | refuse (off : Nat) (v : Word) (h : s.Refuses (targetOf off)) :
      HostEffect s (.write (s.params.base + off) 4 v) (s.refuseWrite.replyWith .done)
  /-- The reset input (R220). -/
  | reset : HostEffect s .reset s.hardReset

theorem State.writeTarget_effect (s : State) (off : Nat) (v : Word) :
    HostEffect s (.write (s.params.base + off) 4 v) ((s.writeTarget (targetOf off) v).replyWith .done) := by
  obtain ⟨ht, he⟩ | ⟨ht, he⟩ | ⟨ht, he⟩ | ⟨i, j, ht, hj, hb, he⟩ | ⟨k, j, ht, hj, hb, hk, he⟩ | ⟨hr, he⟩ | he :=
    s.writeTarget_cases (targetOf off) v
  all_goals rw [he]
  · rw [targetOf_eq_ctrl ht]; exact .ctrl v
  · rw [targetOf_eq_status ht]; exact .status v
  · obtain ⟨hb, ho⟩ | ⟨hb, hv, ho⟩ | ⟨hb, hv, ho⟩ := s.offerCommand_cases v
    all_goals rw [ho]
    · exact .refuse off v (.inl ⟨hb, .inl ht⟩)
    · rw [targetOf_eq_cmd ht]; exact .accept v hb hv
    · rw [targetOf_eq_cmd ht]; exact .acceptIllegal v hb hv
  · exact .setReg off v i j ht hj hb
  · exact .setKey off v k j ht hj hb hk
  · obtain ⟨i, j, ht, hj, hb⟩ | ⟨k, j, ht, hj, hb | hk⟩ := hr
    · exact .refuse off v (.inl ⟨hb, .inr (.inl ⟨i, j, ht, hj⟩)⟩)
    · exact .refuse off v (.inl ⟨hb, .inr (.inr ⟨k, j, ht, hj⟩)⟩)
    · exact .refuse off v (.inr ⟨hk, k, j, ht, hj⟩)
  · exact .quiet (by simp) (some .done) s.draws

theorem State.perform_effect {e : HostEvent} {s t : State} (h : s.perform e = .next t) : HostEffect s e t := by
  obtain ⟨a, n, rfl, he⟩ | ⟨a, n, v, rfl, he⟩ | ⟨off, v, rfl, -, he⟩ | ⟨rfl, he⟩ :=
    State.perform_cases h
  all_goals rw [he]
  · exact .quiet (by simp) _ _
  · exact .quiet (by simp) (some (.busError s.params.busError)) s.draws
  · exact s.writeTarget_effect off v
  · exact .reset

/-- What a step can do: nothing, the completion of the running command, or the next host event. -/
theorem step_moves {s t : State} (h : step s = .next t) :
    t = s ∨ (Claims.CompletesNext s ∧ ∃ rd o, t = s.complete rd o) ∨
    ∃ e rest, Claims.NextIs s e rest ∧ HostEffect { s with arrivals := rest } e t := by
  obtain ⟨-, -, he⟩ | ⟨r, i, hr, hafter, -, he⟩ | ⟨a, rest, ha, hafter, hperform⟩ := step_cases h
  · exact .inl he
  · exact .inr (.inl ⟨⟨by simp [State.busy, hr], hafter⟩, _, _, he⟩)
  · exact .inr (.inr ⟨a.event, rest, ⟨a.afterCompletion, ha, hafter⟩, State.perform_effect hperform⟩)

/-- Settles O30: while BUSY = 1 an event that is no reset only answers, writes CTRL or STATUS, or is
refused. -/
theorem hostCannotTouchRunningCommand : Obligations.HostCannotTouchRunningCommand := by
  intro s t e hb he h
  cases State.perform_effect h with
  | quiet _ reply draws => exact ⟨rfl, rfl, fun k => by cases k <;> rfl, rfl, rfl, rfl⟩
  | ctrl v => simp
  | status v => simp
  | refuse off v _ => simp
  | accept v hidle _ => exact absurd hb (by simp [hidle])
  | acceptIllegal v hidle _ => exact absurd hb (by simp [hidle])
  | setReg off v i j _ _ hidle => exact absurd hb (by simp [hidle])
  | setKey off v k j _ _ hidle _ => exact absurd hb (by simp [hidle])
  | reset => exact absurd rfl he

/-- Settles O53: a host event takes itself off the list, and nothing else touches it. -/
theorem stepConsumesInOrder : Obligations.StepConsumesInOrder := by
  intro s t h
  obtain rfl | ⟨-, rd, o, rfl⟩ | ⟨e, rest, ⟨after, ha, -⟩, heff⟩ := step_moves h
  · exact ⟨rfl, .inl rfl⟩
  · exact ⟨by simp, .inl (by simp)⟩
  · suffices hfields : t.params = s.params ∧ t.arrivals = rest from
      ⟨hfields.1, .inr ⟨_, hfields.2 ▸ ha⟩⟩
    cases heff <;> simp

/-- Settles O46: the one write to a key register needs KLOCK = 0, and a write to CTRL only sets KLOCK. -/
theorem keyLockHolds : Obligations.KeyLockHolds := by
  intro s t hk h hreset
  obtain rfl | ⟨-, rd, o, rfl⟩ | ⟨e, rest, hnext, heff⟩ := step_moves h
  · exact ⟨hk, fun _ => rfl⟩
  · simp [hk]
  · cases heff with
    | setKey off v k j _ _ _ hopen => exact absurd (hopen : s.klock = false) (by simp [hk])
    | reset => exact absurd hnext (hreset rest)
    | _ => exact ⟨by simp [hk], fun k => by cases k <;> rfl⟩

/-- Settles O47: only a refusal sets ACCERR. -/
theorem accErrCauses : Obligations.AccErrCauses := by
  intro s t hclear h hset
  obtain rfl | ⟨-, rd, o, rfl⟩ | ⟨e, rest, hnext, heff⟩ := step_moves h
  · simp [hclear] at hset
  · simp [hclear] at hset
  · cases heff with
    | refuse off v hrefuses => exact ⟨off, v, rest, hnext, hrefuses⟩
    | _ => simp [hclear] at hset

/-- Settles O48: acceptance sets BUSY; a completion and a reset clear it. -/
theorem busyChanges : Obligations.BusyChanges := by
  intro s t h
  obtain rfl | ⟨hnext, rd, o, rfl⟩ | ⟨e, rest, hnext, heff⟩ := step_moves h
  · exact ⟨fun hidle hb => by simp [hidle] at hb, fun hb hidle => by simp [hidle] at hb⟩
  · exact ⟨fun _ hb => by simp at hb, fun _ _ => .inl hnext⟩
  · cases heff with
    | accept v hb hv => exact ⟨fun _ _ => ⟨v, rest, hnext, hv, rfl⟩, fun _ hidle => by simp at hidle⟩
    | reset => exact ⟨fun _ hb => by simp at hb, fun _ _ => .inr ⟨rest, hnext⟩⟩
    | _ => exact ⟨fun hidle hb => by simp_all [State.busy], fun hb hidle => by simp_all [State.busy]⟩

/-- Settles O49: a completion and an illegal word set DONE; acceptance, a write to STATUS and a reset
clear it. -/
theorem doneChanges : Obligations.DoneChanges := by
  intro s t h
  obtain rfl | ⟨hnext, rd, o, rfl⟩ | ⟨e, rest, hnext, heff⟩ := step_moves h
  · exact ⟨fun hclear hset => by simp [hclear] at hset, fun hset hclear => by simp [hclear] at hset⟩
  · exact ⟨fun _ _ => .inl hnext, fun _ hclear => by simp at hclear⟩
  · cases heff with
    | accept v hb hv => exact ⟨fun _ hset => by simp at hset, fun _ _ => .inl ⟨v, rest, hnext, hb, hv⟩⟩
    | acceptIllegal v hb hv =>
      exact ⟨fun _ _ => .inr ⟨v, rest, hnext, hb, hv⟩, fun _ hclear => by simp at hclear⟩
    | status v =>
      refine ⟨fun hclear hset => by simp [hclear] at hset,
        fun hset hclear => .inr (.inl ⟨v, rest, hnext, ?_⟩)⟩
      simpa [hset] using hclear
    | reset => exact ⟨fun _ hset => by simp at hset, fun _ _ => .inr (.inr ⟨rest, hnext⟩)⟩
    | _ =>
      exact ⟨fun hclear hset => by simp [hclear] at hset, fun hset hclear => by simp [hset] at hclear⟩

/-! The completion as the meaning of a command. -/

/-- OP and RD of INFLIGHT and the source fields of the CMD readback make up the accepted word (log 11). -/
theorem runningWord_eq_cmd {r : InFlight} {cmd : Word} (hop : r.op = (fieldsOf cmd).op)
    (hrd : r.rd = (fieldsOf cmd).rd) : runningWord r cmd = cmd := by
  rw [runningWord, hop, hrd]
  apply BitVec.eq_of_getLsbD_eq (w := 24 + 4 + 4)
  intro i hi
  simp only [fieldsOf, BitVec.getLsbD_append, BitVec.getLsbD_extractLsb']
  grind

theorem step_of_completesNext {s : State} {r : InFlight} (h : Claims.CompletesNext s) (hr : s.inflight = some r) :
    step s = engineStep r s := by
  obtain ⟨-, hafter⟩ := h
  unfold step nextMove
  cases ha : s.arrivals with
  | nil => simp [hr]
  | cons a rest => simp [hr, hafter a rest ha]

/-- Settles O7. -/
theorem stepRunsCommand : Obligations.StepRunsCommand := by
  intro s r i hnext hr hop hrd hi
  have hrunning : runningInstr r s.cmd = some i := by rw [runningInstr, runningWord_eq_cmd hop hrd, hi]; rfl
  rw [step_of_completesNext hnext hr, engineStep, hrunning]

end Sys2Proof.Machine
end

section
/-! PROOFS. The words of a register as bits of a number: what replacing one of them keeps (R63), and how the
reads of stx put them together (R103). -/

namespace Sys2Proof.Machine

/-! One word replaced. -/

theorem getLsbD_wordOf (x k i : Nat) : (wordOf x k).getLsbD i = (decide (i < 32) && x.testBit (32 * k + i)) := by
  rw [wordOf, BitVec.getLsbD_ofNat, Nat.testBit_div_two_pow, Nat.add_comm]

/-- The bits of word j come from the written word, all others from the register. -/
theorem testBit_replaceWord (x j : Nat) (v : Word) (i : Nat) :
    (replaceWord x j v).testBit i =
      if 32 * j ≤ i ∧ i < 32 * (j + 1) then v.getLsbD (i - 32 * j) else x.testBit i := by
  have hwords : replaceWord x j v =
      2 ^ (32 * j) * (2 ^ 32 * (x / 2 ^ (32 * (j + 1))) + v.toNat) + x % 2 ^ (32 * j) := by
    rw [replaceWord]; ring
  rw [hwords, Nat.testBit_two_pow_mul_add _ (Nat.mod_lt _ (Nat.two_pow_pos _))]
  by_cases hlow : i < 32 * j
  · rw [if_pos hlow, if_neg (by omega), Nat.testBit_mod_two_pow, decide_eq_true hlow, Bool.true_and]
  rw [if_neg hlow, Nat.testBit_two_pow_mul_add _ v.isLt]
  by_cases hword : i < 32 * (j + 1)
  · rw [if_pos (by omega), if_pos (by omega), BitVec.testBit_toNat]
  · rw [if_neg (by omega), if_neg (by omega), Nat.testBit_div_two_pow]
    congr 1
    omega

theorem wordOf_replaceWord_self (x j : Nat) (v : Word) : wordOf (replaceWord x j v) j = v := by
  apply BitVec.eq_of_getLsbD_eq
  intro i hi
  rw [getLsbD_wordOf, testBit_replaceWord, if_pos (by omega), decide_eq_true hi, Bool.true_and,
    Nat.add_sub_cancel_left]

theorem wordOf_replaceWord_of_ne {j k : Nat} (h : k ≠ j) (x : Nat) (v : Word) :
    wordOf (replaceWord x j v) k = wordOf x k := by
  apply BitVec.eq_of_getLsbD_eq
  intro i hi
  rw [getLsbD_wordOf, getLsbD_wordOf, testBit_replaceWord, if_neg (by omega)]

/-- No bit from 32 n on is set, for word j lies below it. -/
theorem replaceWord_lt_words {x j n : Nat} (v : Word) (hj : j < n) (hx : x < 2 ^ (32 * n)) :
    replaceWord x j v < 2 ^ (32 * n) := by
  refine Nat.lt_pow_two_of_testBit _ fun i hi => ?_
  rw [testBit_replaceWord, if_neg (by omega)]
  exact Nat.testBit_lt_two_pow (hx.trans_le (Nat.pow_le_pow_right (by decide) hi))

/-- Settles O34: each clause is a fact about the bits of the new number. -/
theorem wordsOfARegister : Obligations.WordsOfARegister := fun x j v =>
  ⟨wordOf_replaceWord_self x j v, fun _ hk => wordOf_replaceWord_of_ne hk x v,
    fun _ hj hx => replaceWord_lt_words v hj hx⟩

/-! All words read. -/

theorem wordOf_succ (x j : Nat) : wordOf x (j + 1) = wordOf (x / 2 ^ 32) j := by
  rw [wordOf, wordOf, Nat.div_div_eq_div_mul, ← pow_add, Nat.mul_succ, Nat.add_comm]

/-- The first n words of a number make up the number modulo 2^(32 n). -/
theorem assembleWords_wordOf (x n : Nat) : assembleWords ((List.range n).map (wordOf x)) = x % 2 ^ (32 * n) := by
  induction n generalizing x with
  | zero => simp [assembleWords, Nat.mod_one]
  | succ n ih =>
    have htail : (wordOf x ∘ Nat.succ) = wordOf (x / 2 ^ 32) := funext (wordOf_succ x)
    rw [List.range_succ_eq_map, List.map_cons, List.map_map, htail, assembleWords, ih]
    calc (wordOf x 0).toNat + 2 ^ 32 * (x / 2 ^ 32 % 2 ^ (32 * n))
        = x % 2 ^ 32 + 2 ^ 32 * (x / 2 ^ 32 % 2 ^ (32 * n)) := by simp [wordOf]
      _ = x % (2 ^ 32 * 2 ^ (32 * n)) := Nat.mod_mul.symm
      _ = x % 2 ^ (32 * (n + 1)) := by rw [← pow_add, Nat.mul_succ, Nat.add_comm]

/-- Reads sent at once are performed one per step, and each leaves its answer and the events after it. -/
theorem run_reads {s : State} {e : Nat → HostEvent} {w : Nat → Word} {js : List Nat}
    (hread : ∀ j ∈ js, ∀ arrivals reply,
      (s.atPort arrivals reply).perform (e j) = .next (s.atPort arrivals (some (.data (w j)))))
    (reply : Option Reply) (k : Nat) (hk : k < js.length) :
    Sys2Proof.core.run (k + 1) (s.atPort (js.map fun j => atOnce (e j)) reply) =
      .next (s.atPort ((js.drop (k + 1)).map fun j => atOnce (e j)) (some (.data (w js[k])))) := by
  induction js generalizing k reply with
  | nil => exact absurd hk (Nat.not_lt_zero k)
  | cons j js ih =>
    rw [List.map_cons, run_atOnce (hread j List.mem_cons_self _ _)]
    cases k with
    | zero => rfl
    | succ k => exact ih (fun i hi => hread i (List.mem_cons_of_mem j hi)) _ k (Nat.lt_of_succ_lt_succ hk)

/-- Settles O41: the j-th read answers word j of the register, which has no bit from 32 NW on. -/
theorem stxReadsTheValue : Obligations.StxReadsTheValue := by
  rintro s x ⟨hmod, -, hmax, -⟩ hb hx harr
  have hW : s.params.W = 32 * s.params.NW := by rw [Params.NW]; omega
  have harr : s.arrivals = (List.range s.params.NW).map fun j => atOnce (opRd s.params (slotOf x + 4 * j)) := by
    rw [harr, opStx, List.map_map]; rfl
  have hread : ∀ j ∈ List.range s.params.NW, ∀ arrivals reply,
      (s.atPort arrivals reply).perform (opRd s.params (slotOf x + 4 * j)) =
        .next (s.atPort arrivals (some (.data (wordOf (s.named x) j)))) := by
    intro j hj arrivals reply
    have hj : j < s.params.NW := List.mem_range.mp hj
    have hanswer := State.perform_readWord (s := s.atPort arrivals reply) x hb hj (by omega)
    rw [State.named_atPort] at hanswer
    exact hanswer
  refine ⟨(List.range s.params.NW).map (wordOf (s.named x)), by simp, ?_, fun j hj => ?_⟩
  · rw [assembleWords_wordOf, ← hW, Nat.mod_eq_of_lt hx]
  · have hrun := run_reads hread s.reply j (by simpa using hj)
    rw [List.map_drop, ← harr] at hrun
    rw [List.getElem_map]
    exact hrun

end Sys2Proof.Machine
end

section
/-! PROOFS. The rest of the register window (R60 to R71): its layout, the offsets that ignore writes, the
accesses that the bus refuses, what a read leaves unchanged; and where the model itself stops. -/

namespace Sys2Proof.Machine

/-! The layout (R62). -/

theorem targetOf_gap {off : Nat} (lower : 0x0014 ≤ off) (upper : off ≤ 0x0FFF) : targetOf off = .reserved := by
  grind [targetOf]

theorem targetOf_tail {off : Nat} (lower : 0x3600 ≤ off) : targetOf off = .reserved := by grind [targetOf]

/-- Settles O31: the slots are those of the data and key registers, between the CSRs and the reserved
ranges. -/
theorem windowLayout : Obligations.WindowLayout :=
  ⟨rfl, rfl, rfl, rfl, rfl, fun _ => targetOf_gap, fun i _ => targetOf_dataSlot i,
    fun _ hj => ⟨targetOf_keySlot .p hj, targetOf_keySlot .q hj, targetOf_keySlot .e hj⟩,
    fun _ lower _ => targetOf_tail lower⟩

/-! Unbacked words and reserved offsets (R64, R66). -/

/-- A target that holds no bits, whatever BUSY and KLOCK are. -/
def Target.Unbacked (p : Params) (t : Target) : Prop :=
  t = .reserved ∨ (∃ i j, t = .data i j ∧ p.NW ≤ j) ∨ ∃ k j, t = .key k j ∧ p.NW ≤ j

theorem State.readTarget_unbacked {s : State} {t : Target} (h : t.Unbacked s.params) : s.readTarget t = (0, s) := by
  obtain rfl | ⟨i, j, rfl, hj⟩ | ⟨k, j, rfl, hj⟩ := h
  · rfl
  · exact if_pos hj
  · exact if_pos hj

theorem State.writeTarget_unbacked {s : State} {t : Target} (h : t.Unbacked s.params) (v : Word) :
    s.writeTarget t v = s := by
  obtain rfl | ⟨i, j, rfl, hj⟩ | ⟨k, j, rfl, hj⟩ := h
  · rfl
  · exact if_pos hj
  · exact if_pos hj

/-- Settles O37: what is not backed is tested before BUSY and KLOCK are. -/
theorem unbackedWordsAreZero : Obligations.UnbackedWordsAreZero := by
  intro s off v hoff hal h
  constructor
  · rw [State.perform_read hoff hal, State.readTarget_unbacked h]
    rfl
  · rw [State.perform_write hoff hal, State.writeTarget_unbacked h]
    rfl

/-! Refused accesses (R61), and reads (R69). -/

theorem answers_eq_false {off size : Nat} (h : size ≠ 4 ∨ off % 4 ≠ 0) : answers off size = false := by
  rw [answers, Bool.and_eq_false_iff, beq_eq_false_iff_ne, beq_eq_false_iff_ne]
  exact h

/-- Settles O32: the bus refuses what the block does not answer, inside the window too. -/
theorem otherAccessesAreRefused : Obligations.OtherAccessesAreRefused := by
  intro s off size v hoff h
  have hin : inWindow s.params (s.params.base + off) = true := inWindow_base_add hoff
  constructor
  · simp [State.perform, hin, State.hostRead, answers_eq_false h, State.replyWith]
  · simp [State.perform, hin, State.hostWrite, answers_eq_false h, State.replyWith]

/-- Settles O33: of what a host event can do, only the first case is a read. -/
theorem readsChangeNothing : Obligations.ReadsChangeNothing := by
  intro s t addr size h
  obtain ⟨-, -, -, ht⟩ | ⟨_, _, _, he, -⟩ | ⟨_, _, he, -, -⟩ | ⟨he, -⟩ := State.perform_cases h
  · exact ht
  all_goals cases he

/-! The end of a run, and the model's own stops. -/

theorem step_of_runEnded {s : State} (h : s.RunEnded) : step s = .next s := by
  obtain ⟨ha, hb⟩ := h
  have hr : s.inflight = none := by simpa [State.busy] using hb
  simp [step, nextMove, ha, hr]

/-- Settles O8: the two moves that are no completion. -/
theorem stepTakesEvent : Obligations.StepTakesEvent := fun _ => ⟨fun _ _ => step_of_nextIs, step_of_runEnded⟩

theorem inWindow_eq_false {p : Params} {addr : Nat} (h : addr < p.base ∨ p.base + windowSize ≤ addr) :
    inWindow p addr = false := by
  simp only [inWindow, Bool.and_eq_false_iff, decide_eq_false_iff_not]
  omega

theorem exec_not_running {s : State} (hb : s.busy = false) (i : Instr) : exec i s = .fault .notRunning := by
  have hr : s.inflight = none := by simpa [State.busy] using hb
  simp [exec_eq_completing, completing, hr]

/-- Settles O57: the window is tested before an access is performed, and INFLIGHT before any meaning. -/
theorem modelStops : Obligations.ModelStops := by
  refine ⟨fun s addr size v haddr => ?_, fun i s hb => exec_not_running hb i⟩
  have hout : inWindow s.params addr = false := inWindow_eq_false haddr
  simp [State.perform, hout]

end Sys2Proof.Machine
end

section
/-! PROOFS. Encoding and decoding: the decoder answers with a command exactly for that command's fields
(R93, R96), so it and the encoder are inverse to each other; and a row of R94, compared with a word field by
field, says what its command's fields say. -/

namespace Sys2Proof

/-! The fields of a command (R93). -/

theorem unlessUsed_eq_ok {name : FieldName} {v : BitVec 4} {r : Except Reject Instr} {i : Instr} :
    unlessUsed name v r = .ok i ↔ v = 0 ∧ r = .ok i := by
  by_cases hv : v = 0
  · rw [unlessUsed, if_pos hv, and_iff_right hv]
  · rw [unlessUsed, if_neg hv]
    exact iff_of_false nofun (hv ·.1)

theorem decodeFields_fields (i : Instr) : decodeFields i.fields = .ok i := by
  cases i <;> simp [decodeFields, Instr.fields, unlessUsed]

/-- A command is decoded from no fields but its own: the opcode selects the command, and R96 refuses the
fields that it does not use. -/
theorem fields_of_decodeFields_eq_ok {f : Fields} {i : Instr} (h : decodeFields f = .ok i) : f = i.fields := by
  obtain ⟨op, rd, rs1, rs2, rs3, rsv⟩ := f
  unfold decodeFields at h
  split at h
  · cases h
  · split at h <;> simp only [unlessUsed_eq_ok, Except.ok.injEq, reduceCtorEq, eq_comm (b := i)] at h
    all_goals simp_all [Instr.fields, BitVec.toNat_eq]

theorem wf_fields (i : Instr) : i.fields.wf = true := by
  cases i <;> simp [Fields.wf, Instr.fields]

/-- The checks of R93 and R96 leave no fields but those of a command, which the opcode selects. -/
theorem exists_eq_fields_of_wf {f : Fields} (h : f.wf = true) : ∃ i : Instr, f = i.fields := by
  obtain ⟨op, rd, rs1, rs2, rs3, rsv⟩ := f
  rw [Fields.wf, Bool.and_eq_true, beq_iff_eq] at h
  obtain ⟨rfl, h⟩ := h
  dsimp only at h
  split at h <;> rename_i hop
  · exact ⟨.mul (regOf rd) (regOf rs1) (regOf rs2), by simp_all [Instr.fields, BitVec.toNat_eq]⟩
  · exact ⟨.sub (regOf rd) (regOf rs1) (regOf rs2), by simp_all [Instr.fields, BitVec.toNat_eq]⟩
  · exact ⟨.tot (regOf rd) (regOf rs1) (regOf rs2), by simp_all [Instr.fields, BitVec.toNat_eq]⟩
  · exact ⟨.copr (regOf rs1) (regOf rs2), by simp_all [Instr.fields, BitVec.toNat_eq]⟩
  · exact ⟨.minv (regOf rd) (regOf rs1) (regOf rs2), by simp_all [Instr.fields, BitVec.toNat_eq]⟩
  · exact ⟨.mexp (regOf rd) (regOf rs1) (regOf rs2) (regOf rs3), by simp_all [Instr.fields, BitVec.toNat_eq]⟩
  · exact ⟨.enc (regOf rd) (regOf rs1), by simp_all [Instr.fields, BitVec.toNat_eq]⟩
  · exact ⟨.dec (regOf rd) (regOf rs1), by simp_all [Instr.fields, BitVec.toNat_eq]⟩
  · cases h

theorem wf_iff_eq_fields {f : Fields} : f.wf = true ↔ ∃ i : Instr, f = i.fields :=
  ⟨exists_eq_fields_of_wf, fun ⟨i, hi⟩ => hi ▸ wf_fields i⟩

/-! The decoder and the encoder. -/

theorem decode_eq_ok {w : Word} {i : Instr} : decode w = .ok i ↔ fieldsOf w = i.fields :=
  ⟨fields_of_decodeFields_eq_ok, fun h => by rw [decode, h, decodeFields_fields]⟩

/-- Settles O4: the word of a command has the fields of that command. -/
theorem decodeOfEncode : Obligations.DecodeOfEncode := fun i => decode_eq_ok.mpr (fieldsOf_encode i)

/-- Settles O5: a word is laid out from its fields, which are those of its command. -/
theorem encodeOfDecode : Obligations.EncodeOfDecode := by
  intro w i h
  rw [encode, ← decode_eq_ok.mp h, toWord_fieldsOf]

/-- Settles O1. -/
theorem decodesKnownWords : Obligations.DecodesKnownWords := by
  unfold Obligations.DecodesKnownWords
  decide

/-! A word under a mask, field by field. -/

/-- The bitwise AND of two words' fields. -/
def Fields.and (f g : Fields) : Fields :=
  { op := f.op &&& g.op, rd := f.rd &&& g.rd, rs1 := f.rs1 &&& g.rs1, rs2 := f.rs2 &&& g.rs2,
    rs3 := f.rs3 &&& g.rs3, rsv := f.rsv &&& g.rsv }

theorem fieldsOf_and (v w : Word) : fieldsOf (v &&& w) = (fieldsOf v).and (fieldsOf w) := by
  simp only [fieldsOf, Fields.and, BitVec.extractLsb'_and]

theorem fieldsOf_inj {v w : Word} : fieldsOf v = fieldsOf w ↔ v = w :=
  ⟨fun h => by rw [← toWord_fieldsOf v, h, toWord_fieldsOf], congrArg fieldsOf⟩

theorem and_eq_toWord {w m : Word} {f : Fields} : w &&& m = f.toWord ↔ (fieldsOf w).and (fieldsOf m) = f := by
  rw [← fieldsOf_inj, fieldsOf_and, fieldsOf_toWord]

theorem Row.matchesWord_iff {r : Row} {w : Word} :
    r.matchesWord w = true ↔ (fieldsOf w).and (fieldsOf r.mask) = fieldsOf r.value := by
  rw [Row.matchesWord, beq_iff_eq, ← fieldsOf_inj, fieldsOf_and]

/-- A field that the mask covers is compared whole. -/
@[simp] theorem nibble_and_ones (x : BitVec 4) : x &&& 15#4 = x := BitVec.and_allOnes

@[simp] theorem rsv_and_ones (x : BitVec 12) : x &&& 4095#12 = x := BitVec.and_allOnes

/-! The four masks of R94, each with the operands it leaves open. -/

section Masks

variable {w : Word} {op rd rs1 rs2 rs3 : BitVec 4}

theorem fieldsOf_eq_without_rs3 : fieldsOf w = ⟨op, rd, rs1, rs2, 0, 0⟩ ↔
    w &&& 0xFFFF000F = (Fields.mk op 0 0 0 0 0).toWord ∧
      w.extractLsb' 4 4 = rd ∧ w.extractLsb' 8 4 = rs1 ∧ w.extractLsb' 12 4 = rs2 := by
  simp [and_eq_toWord, fieldsOf, Fields.and, and_assoc, and_comm, and_left_comm]

theorem fieldsOf_eq_without_rd_rs3 : fieldsOf w = ⟨op, 0, rs1, rs2, 0, 0⟩ ↔
    w &&& 0xFFFF00FF = (Fields.mk op 0 0 0 0 0).toWord ∧
      w.extractLsb' 8 4 = rs1 ∧ w.extractLsb' 12 4 = rs2 := by
  simp [and_eq_toWord, fieldsOf, Fields.and, and_assoc, and_comm, and_left_comm]

theorem fieldsOf_eq_all_used : fieldsOf w = ⟨op, rd, rs1, rs2, rs3, 0⟩ ↔
    w &&& 0xFFF0000F = (Fields.mk op 0 0 0 0 0).toWord ∧
      w.extractLsb' 4 4 = rd ∧ w.extractLsb' 8 4 = rs1 ∧ w.extractLsb' 12 4 = rs2 ∧
      w.extractLsb' 16 4 = rs3 := by
  simp [and_eq_toWord, fieldsOf, Fields.and, and_assoc, and_comm, and_left_comm]

theorem fieldsOf_eq_without_rs2_rs3 : fieldsOf w = ⟨op, rd, rs1, 0, 0, 0⟩ ↔
    w &&& 0xFFFFF00F = (Fields.mk op 0 0 0 0 0).toWord ∧
      w.extractLsb' 4 4 = rd ∧ w.extractLsb' 8 4 = rs1 := by
  simp [and_eq_toWord, fieldsOf, Fields.and, and_assoc, and_comm, and_left_comm]

end Masks

/-! The rows of R94. -/

/-- Every mask covers OP, so a row fixes the opcode of the words that match it. -/
theorem op_of_matchesWord {r : Row} (hr : r ∈ commandRows) {w : Word} (h : r.matchesWord w = true) :
    (fieldsOf w).op = (fieldsOf r.value).op := by
  have hmask : ∀ r ∈ commandRows, (fieldsOf r.mask).op = 15#4 := by decide
  rw [← Row.matchesWord_iff.mp h, Fields.and, hmask r hr, nibble_and_ones]

theorem row_eq_of_op_eq : ∀ r ∈ commandRows, ∀ r' ∈ commandRows,
    (fieldsOf r.value).op = (fieldsOf r'.value).op → r = r' := by decide

/-- Settles O2: the mask and the match of a command's row say of a word what the command's fields say, and
rows differ in the opcode. -/
theorem rowsDecideCommands : Obligations.RowsDecideCommands := by
  intro w
  refine ⟨fun _ _ _ => ?mul, fun _ _ _ => ?sub, fun _ _ _ => ?tot, fun _ _ => ?copr, fun _ _ _ => ?minv,
    fun _ _ _ _ => ?mexp, fun _ _ => ?enc, fun _ _ => ?dec, fun r hr r' hr' h h' => ?disjoint⟩
  case mul | sub | tot | minv => exact decode_eq_ok.trans fieldsOf_eq_without_rs3
  case copr => exact decode_eq_ok.trans fieldsOf_eq_without_rd_rs3
  case mexp => exact decode_eq_ok.trans fieldsOf_eq_all_used
  case enc | dec => exact decode_eq_ok.trans fieldsOf_eq_without_rs2_rs3
  case disjoint =>
    exact row_eq_of_op_eq r hr r' hr' ((op_of_matchesWord hr h).symm.trans (op_of_matchesWord hr' h'))

/-- The bits outside a row's operands are its opcode and the zeros that R93 asks for with it. -/
theorem wf_of_row {f : Fields} :
    ∀ r ∈ commandRows, f.and (fieldsOf r.mask) = fieldsOf r.value → f.wf = true := by
  obtain ⟨op, rd, rs1, rs2, rs3, rsv⟩ := f
  simp +contextual [commandRows, fieldsOf, Fields.and, Fields.wf]

theorem wf_of_legal {w : Word} (h : legal w = true) : (fieldsOf w).wf = true := by
  obtain ⟨r, hr, hmatch⟩ := List.any_eq_true.mp h
  exact wf_of_row r hr (Row.matchesWord_iff.mp hmatch)

/-- Settles O3: from the predicate to the fields, to the decoder, and back, since a word that decodes is the
word of its command, which is legal. -/
theorem legalIffWellFormed : Obligations.LegalIffWellFormed := by
  intro w
  have hdecode : (fieldsOf w).wf = true ↔ ∃ i, decode w = .ok i := by
    simp only [wf_iff_eq_fields, decode_eq_ok]
  have hlegal : (∃ i, decode w = .ok i) → legal w = true :=
    fun ⟨i, hi⟩ => encodeOfDecode w i hi ▸ encode_legal i
  exact ⟨⟨wf_of_legal, fun h => hlegal (hdecode.mp h)⟩, fun h => hdecode.mp (wf_of_legal h), hlegal⟩

end Sys2Proof
end

section
/-! PROOFS. The assembler text of a command, read back (R99, R107): the line is cut at its comment, its
blanks and its commas exactly where the writer put them. -/

namespace Sys2Proof.Machine

/-! Cutting a list of characters. -/

theorem splitCommas_append_comma {part : List Char} (h : ',' ∉ part) (rest : List Char) :
    splitCommas (part ++ ',' :: rest) = part :: splitCommas rest := by
  induction part with
  | nil => simp [splitCommas]
  | cons c cs ih =>
    obtain ⟨hc, hcs⟩ := List.ne_and_not_mem_of_not_mem_cons h
    simp [splitCommas, Ne.symm hc, ih hcs]

theorem splitCommas_of_not_mem {part : List Char} (h : ',' ∉ part) : splitCommas part = [part] := by
  induction part with
  | nil => rfl
  | cons c cs ih =>
    obtain ⟨hc, hcs⟩ := List.ne_and_not_mem_of_not_mem_cons h
    simp [splitCommas, Ne.symm hc, ih hcs]

/-! A register name (R107). -/

theorem comma_not_mem_regText : ∀ i : RegIdx, ',' ∉ ' ' :: regText i := by decide

theorem semicolon_not_mem_regText : ∀ i : RegIdx, ';' ∉ regText i := by decide

theorem readReg_blank_regText : ∀ i : RegIdx, readReg (' ' :: regText i) = some i := by decide

/-! The operands. -/

theorem operandsText_cons_cons (i j : RegIdx) (is : List RegIdx) :
    operandsText (i :: j :: is) = regText i ++ ',' :: ' ' :: operandsText (j :: is) := by
  simp [operandsText]

theorem semicolon_not_mem_operandsText (is : List RegIdx) : ';' ∉ operandsText is := by
  induction is with
  | nil => simp [operandsText]
  | cons i is ih =>
    cases is with
    | nil => exact semicolon_not_mem_regText i
    | cons j js => simp [operandsText_cons_cons, semicolon_not_mem_regText, ih]

/-- Each operand is read with the blank before it, which the mnemonic or the last comma left there. -/
theorem readRegs_operandsText {is : List RegIdx} (h : is ≠ []) :
    readRegs (splitCommas (' ' :: operandsText is)) = some is := by
  induction is with
  | nil => exact absurd rfl h
  | cons i is ih =>
    cases is with
    | nil =>
      have hsplit : splitCommas (' ' :: operandsText [i]) = [' ' :: regText i] :=
        splitCommas_of_not_mem (comma_not_mem_regText i)
      simp [hsplit, readRegs, readReg_blank_regText]
    | cons j js =>
      have hsplit : splitCommas (' ' :: operandsText (i :: j :: js)) =
          (' ' :: regText i) :: splitCommas (' ' :: operandsText (j :: js)) := by
        rw [operandsText_cons_cons]
        exact splitCommas_append_comma (comma_not_mem_regText i) _
      simp [hsplit, readRegs, readReg_blank_regText, ih]

theorem operandsOf_ne_nil (i : Instr) : operandsOf i ≠ [] := by cases i <;> exact List.cons_ne_nil _ _

/-! The mnemonic. -/

theorem commandOf_mnemonicText (i : Instr) :
    commandOf ((mnemonicText i).map Char.toLower) (operandsOf i) = some i := by
  cases i <;> rfl

theorem isBlank_of_mem_mnemonicText {i : Instr} : ∀ c ∈ mnemonicText i, isBlank c = false := by
  cases i <;> simp [mnemonicText, isBlank]

theorem semicolon_not_mem_mnemonicText (i : Instr) : ';' ∉ mnemonicText i := by
  cases i <;> simp [mnemonicText]

theorem dropWhile_blank_asmText (i : Instr) : (asmText i).dropWhile isBlank = asmText i := by
  cases i <;> rfl

/-- The first blank of the text ends the mnemonic. -/
theorem span_asmText (i : Instr) :
    (asmText i).takeWhile (fun c => !isBlank c) = mnemonicText i ∧
      (asmText i).dropWhile (fun c => !isBlank c) = ' ' :: operandsText (operandsOf i) := by
  have hword : ∀ c ∈ mnemonicText i, (!isBlank c) = true :=
    fun c hc => by rw [isBlank_of_mem_mnemonicText c hc, Bool.not_false]
  rw [asmText, List.append_assoc, List.takeWhile_append_of_pos hword, List.dropWhile_append_of_pos hword]
  simp [isBlank]

theorem takeWhile_comment_asmText (i : Instr) : (asmText i).takeWhile (fun c => c != ';') = asmText i := by
  rw [List.takeWhile_eq_self_iff]
  intro c hc
  have h : ';' ∉ asmText i := by
    simp [asmText, semicolon_not_mem_mnemonicText, semicolon_not_mem_operandsText]
  exact bne_iff_ne.mpr fun heq => h (heq ▸ hc)

/-- Settles O6. -/
theorem assemblerRoundTrip : Obligations.AssemblerRoundTrip := by
  intro i
  obtain ⟨hmnemonic, hoperands⟩ := span_asmText i
  simp only [readAsm, takeWhile_comment_asmText, dropWhile_blank_asmText, hmnemonic, hoperands,
    readRegs_operandsText (operandsOf_ne_nil i), commandOf_mnemonicText]

end Sys2Proof.Machine
end

section
/-! PROOFS. The life of a command: how it is offered (R121 to R123), what its completion changes and on what
its outcome depends (R126 to R128), and that it completes (R129, R233). -/

namespace Sys2Proof.Machine

/-! Offering a command. -/

/-- A host write that is next writes the word its offset selects (R70). -/
theorem step_of_write {s t : State} {off : Nat} {v : Word} {rest : List Arrival} (hoff : off < windowSize)
    (hal : off % 4 = 0) (h : Claims.NextIs s (.write (s.params.base + off) 4 v) rest)
    (ht : State.writeTarget (targetOf off) v { s with arrivals := rest } = t) :
    step s = .next (t.replyWith .done) :=
  ht ▸ (step_of_nextIs h).trans (State.perform_write hoff hal v { s with arrivals := rest })

/-- A write to CMD that is next offers its word to the block. -/
theorem step_of_cmdWrite {s t : State} {w : Word} {rest : List Arrival}
    (h : Claims.NextIs s (.write (s.params.base + 0x010) 4 w) rest)
    (ht : State.offerCommand w { s with arrivals := rest } = t) : step s = .next (t.replyWith .done) :=
  step_of_write (by decide) (by decide) h ht

/-- Settles O27: acceptance, with the snapshot written out. -/
theorem legalWriteIsAccepted : Obligations.LegalWriteIsAccepted :=
  fun _ _ _ hb hw hnext => step_of_cmdWrite hnext (State.offerCommand_legal hb hw)

/-- Settles O28: an offered word that is not legal completes at once. -/
theorem illegalWriteCompletes : Obligations.IllegalWriteCompletes :=
  fun _ _ _ hb hw hnext => step_of_cmdWrite hnext (State.offerCommand_illegal hb hw)

theorem State.writeTarget_busyWord {s : State} (hb : s.busy = true) {j : Nat} (hj : j < s.params.NW)
    (x : RegName) (v : Word) : s.writeTarget (wordTarget x j) v = s.refuseWrite := by
  cases x with
  | data i => simp [wordTarget, State.writeTarget, hb, hj]
  | key k => simp [wordTarget, State.writeTarget, hb, hj]

/-- While a command runs, a write to a backed word of a named register is refused (R225). -/
theorem step_of_busyWordWrite {s : State} {x : RegName} {j : Nat} {v : Word} {rest : List Arrival}
    (hb : s.busy = true) (hj : j < s.params.NW) (hslot : j < 128)
    (h : Claims.NextIs s (.write (s.params.base + (slotOf x + 4 * j)) 4 v) rest) :
    step s = .next ((State.refuseWrite { s with arrivals := rest }).replyWith .done) := by
  refine step_of_write (slotOf_add_lt_windowSize x hslot) (slotOf_add_aligned x j) h ?_
  rw [targetOf_slotOf x hslot]
  exact State.writeTarget_busyWord (s := { s with arrivals := rest }) hb hj x v

/-- Settles O29: CMD, and each slot as that of a named register. -/
theorem busyWritesAreRefused : Obligations.BusyWritesAreRefused := by
  rintro s off v rest hb (rfl | ⟨i, j, hj, hslot, rfl⟩ | ⟨j, hj, hslot, rfl | rfl | rfl⟩) hnext
  · exact step_of_cmdWrite hnext (State.offerCommand_busy v hb)
  · exact step_of_busyWordWrite (x := .data i) hb hj hslot hnext
  · exact step_of_busyWordWrite (x := .key .p) hb hj hslot hnext
  · exact step_of_busyWordWrite (x := .key .q) hb hj hslot hnext
  · exact step_of_busyWordWrite (x := .key .e) hb hj hslot hnext

/-- The completion of a command that was accepted in `s₀` is its meaning. -/
theorem step_of_snapshot {s s₀ : State} {i : Instr} (hnext : Claims.CompletesNext s)
    (hr : s.inflight = some (snapshot s.cmd s₀)) (hi : decode s.cmd = .ok i) : step s = exec i s :=
  stepRunsCommand s _ i hnext hr rfl rfl hi

/-- Settles O9: acceptance, then the completion, which no event is left to precede. -/
theorem commandRunsInTwoSteps : Obligations.CommandRunsInTwoSteps := by
  intro s i after hb harr
  have hnext : Claims.NextIs s (opCmd s.params i) [] := ⟨after, harr, fun h => by simp [hb] at h⟩
  have haccept := step_of_cmdWrite hnext (State.offerCommand_legal hb (encode_legal i))
  have hcompletes : Claims.CompletesNext ((State.accept (encode i) { s with arrivals := [] }).replyWith .done) :=
    ⟨rfl, fun _ _ h => nomatch h⟩
  exact ⟨_, _, haccept, rfl, rfl, rfl, step_of_snapshot hcompletes rfl (decodeOfEncode i), exec_running rfl,
    by simp [State.RunEnded]⟩

/-! What a completion changes. -/

/-- Only a success writes a register (R127). -/
theorem State.regs_complete_of_errcode_ne_ok {s : State} {rd : Option RegIdx} {o : CmdOutcome}
    (h : (s.complete rd o).errcode ≠ .ok) : (s.complete rd o).regs = s.regs := by
  cases o with
  | ok v => exact absurd rfl h
  | okNoDest => rfl
  | fail code stage => rfl

theorem State.reg_complete_of_ne {s : State} {rd : Option RegIdx} {j : RegIdx} (h : rd ≠ some j)
    (o : CmdOutcome) : (s.complete rd o).reg j = s.reg j := by
  rw [State.reg_complete]
  cases o with
  | ok v => exact if_neg h
  | okNoDest => rfl
  | fail code stage => rfl

/-- Settles O23, field by field of the completion. -/
theorem commandFrame : Obligations.CommandFrame := by
  intro i s t h
  obtain ⟨r, -, rfl⟩ := exec_eq_next.mp h
  refine ⟨fun j hj => State.reg_complete_of_ne hj _, State.regs_complete_of_errcode_ne_ok, ?_⟩
  simp [State.irq]

/-! On what an outcome depends (R128). -/

/-- The command function by opcode alone: the operands of a command select its snapshot, not its function
(R93, R125). -/
def outcomeOfOp (W : Nat) (r : InFlight) (op : BitVec 4) : CmdOutcome :=
  match op.toNat with
  | 1 => fMul W r.a r.b
  | 2 => fSub r.a r.b
  | 3 => fTot W r.a r.b
  | 4 => fCopr r.a r.b
  | 5 => fMinv r.a r.b
  | 6 => fMexp r.a r.b r.c
  | 7 => fEnc W r.a r.kp r.kq r.ke
  | _ => fDec W r.a r.kp r.kq r.ke

theorem outcomeOf_eq_outcomeOfOp (W : Nat) (r : InFlight) (i : Instr) :
    outcomeOf W r i = outcomeOfOp W r i.fields.op := by
  cases i <;> rfl

theorem State.errcode_complete_congr (s s' : State) (rd rd' : Option RegIdx) (o : CmdOutcome) :
    (s.complete rd o).errcode = (s'.complete rd' o).errcode := by
  cases o <;> rfl

theorem State.estage_complete_congr (s s' : State) (rd rd' : Option RegIdx) (o : CmdOutcome) :
    (s.complete rd o).estage = (s'.complete rd' o).estage := by
  cases o <;> rfl

/-- A success carries a value, and a failure a code other than OK. -/
def CmdOutcome.Decides : CmdOutcome → Prop
  | .ok _ => True
  | .okNoDest => False
  | .fail code _ => code ≠ .ok

theorem CmdOutcome.decides_ok (v : Nat) : (CmdOutcome.ok v).Decides := trivial

theorem CmdOutcome.decides_fail {code : ErrCode} (h : code ≠ .ok) (st : Stage) :
    (CmdOutcome.fail code st).Decides := h

theorem CmdOutcome.Decides.ite {c : Prop} [Decidable c] {o o' : CmdOutcome} (h : o.Decides) (h' : o'.Decides) :
    (if c then o else o').Decides := by
  split
  · exact h
  · exact h'

theorem CmdOutcome.Decides.andThen {o : CmdOutcome} {k : Nat → CmdOutcome} (h : o.Decides)
    (hk : ∀ v, (k v).Decides) : (o.andThen k).Decides := by
  cases o with
  | ok v => exact hk v
  | okNoDest => exact h
  | fail code stage => exact h

theorem vmul_decides (x y : Nat) (st : Stage) : (vmul x y st).Decides :=
  .ite (CmdOutcome.decides_fail (by decide) st) (CmdOutcome.decides_ok _)

theorem vsub_decides (x y : Nat) (st : Stage) : (vsub x y st).Decides :=
  .ite (CmdOutcome.decides_fail (by decide) st) (CmdOutcome.decides_ok _)

theorem fit_decides (W t : Nat) (st : Stage) : (fit W t st).Decides :=
  .ite (CmdOutcome.decides_fail (by decide) st) (CmdOutcome.decides_ok _)

theorem totient_decides (p q : Nat) (st : Stage) : (totient p q st).Decides :=
  (vsub_decides p 1 st).andThen fun _ => (vsub_decides q 1 st).andThen fun _ => vmul_decides _ _ st

theorem modinv_decides (x m : Nat) (st : Stage) : (modinv x m st).Decides :=
  .ite (CmdOutcome.decides_fail (by decide) st) <|
    .ite (CmdOutcome.decides_fail (by decide) st) (CmdOutcome.decides_ok _)

/-- The gate of ENC has no value, but what it lets pass has one. -/
theorem coprime_gate_decides {k : CmdOutcome} (hk : k.Decides) (x y : Nat) (st : Stage) :
    ((coprime x y st).gate k).Decides := by
  unfold coprime
  split
  · exact hk
  · exact CmdOutcome.decides_fail (code := .opfail) (by decide) st

theorem keyStages_decides {W p q : Nat} {rest : Nat → Nat → CmdOutcome} (h : ∀ n ph, (rest n ph).Decides) :
    (keyStages W p q rest).Decides :=
  (vmul_decides p q _).andThen fun _ => (fit_decides W _ _).andThen fun _ =>
    (totient_decides p q _).andThen fun _ => h _ _

theorem fMexp_decides (base k m : Nat) : (fMexp base k m).Decides :=
  .ite (CmdOutcome.decides_fail (by decide) _) (CmdOutcome.decides_ok _)

/-- Only COPR succeeds without a value, and it has no destination (R160). -/
theorem outcomeOf_decides {i : Instr} {rd : RegIdx} (h : destOf i = some rd) (W : Nat) (r : InFlight) :
    (outcomeOf W r i).Decides := by
  cases i with
  | mul _ _ _ => exact (vmul_decides _ _ _).andThen fun _ => fit_decides W _ _
  | sub _ _ _ => exact vsub_decides _ _ _
  | tot _ _ _ => exact (totient_decides _ _ _).andThen fun _ => fit_decides W _ _
  | copr _ _ => cases h
  | minv _ _ _ => exact modinv_decides _ _ _
  | mexp _ _ _ _ => exact fMexp_decides _ _ _
  | enc _ _ => exact keyStages_decides fun _ _ => coprime_gate_decides (CmdOutcome.decides_ok _) _ _ _
  | dec _ _ => exact keyStages_decides fun _ _ => (modinv_decides _ _ _).andThen fun _ => CmdOutcome.decides_ok _

/-- The destination holds the outcome's value after a success, whatever the state was. -/
theorem State.reg_complete_congr {o : CmdOutcome} (ho : o.Decides) (s s' : State) (rd rd' : RegIdx)
    (h : (s.complete (some rd) o).errcode = .ok) :
    (s.complete (some rd) o).reg rd = (s'.complete (some rd') o).reg rd' := by
  cases o with
  | ok v => simp [State.reg_complete]
  | okNoDest => exact absurd ho id
  | fail code stage => exact absurd h ho

/-- Settles O25: the opcode and the snapshot fix the outcome, which fixes what is reported and written. -/
theorem equalSnapshotsEqualOutcomes : Obligations.EqualSnapshotsEqualOutcomes := by
  intro i i' s s' t t' hop hinflight hW ht ht'
  obtain ⟨r, hr, rfl⟩ := exec_eq_next.mp ht
  obtain ⟨r', hr', rfl⟩ := exec_eq_next.mp ht'
  obtain rfl : r = r' := Option.some.inj (hr.symm.trans (hinflight.trans hr'))
  have houtcome : outcomeOf s'.params.W r i' = outcomeOf s.params.W r i := by
    rw [outcomeOf_eq_outcomeOfOp, outcomeOf_eq_outcomeOfOp, hop, hW]
  rw [houtcome]
  refine ⟨State.errcode_complete_congr .., State.estage_complete_congr .., fun hok rd rd' hd hd' => ?_⟩
  have hdecides := outcomeOf_decides hd s.params.W r
  rw [hd] at hok ⊢
  rw [hd']
  exact State.reg_complete_congr hdecides s s' rd rd' hok

/-! Progress. -/

/-- The next move of a state, if it has one. -/
theorem State.moves_cases (s : State) :
    s.RunEnded ∨ Claims.CompletesNext s ∨ ∃ e rest, Claims.NextIs s e rest := by
  cases hb : s.busy with
  | false =>
    cases ha : s.arrivals with
    | nil => exact .inl ⟨ha, hb⟩
    | cons a rest => exact .inr (.inr ⟨a.event, rest, a.afterCompletion, ha, by simp [hb]⟩)
  | true =>
    cases ha : s.arrivals with
    | nil => exact .inr (.inl ⟨hb, by simp [ha]⟩)
    | cons a rest =>
      cases hafter : a.afterCompletion with
      | false => exact .inr (.inr ⟨a.event, rest, a.afterCompletion, ha, fun _ => hafter⟩)
      | true => exact .inr (.inl ⟨hb, by simp [ha, hafter]⟩)

/-- A command that runs is the one of the CMD readback (log 11), so its completion is enabled. -/
theorem Inv.step_of_completesNext {s : State} (h : Inv s) (hnext : Claims.CompletesNext s) :
    ∃ i t, decode s.cmd = .ok i ∧ step s = exec i s ∧ exec i s = .next t := by
  obtain ⟨r, hr⟩ := Option.isSome_iff_exists.mp hnext.1
  obtain ⟨hlegal, rfl⟩ := h.running r hr
  obtain ⟨i, hi⟩ := (legalIffWellFormed s.cmd).2.mp hlegal
  exact ⟨i, _, hi, step_of_snapshot hnext hr hi, exec_running hr⟩

theorem State.exists_perform_of_selects {s : State} {e : HostEvent} (h : e.selects s.params = true) :
    ∃ t, s.perform e = .next t := by
  cases e with
  | read addr size => exact ⟨_, if_pos h⟩
  | write addr size v => exact ⟨_, if_pos h⟩
  | reset => exact ⟨_, rfl⟩

theorem State.AllSelect.of_step {s t : State} (h : s.AllSelect) (hstep : step s = .next t) : t.AllSelect := by
  obtain ⟨hparams, harr⟩ := stepConsumesInOrder s t hstep
  intro a ha
  rw [hparams]
  obtain harr | ⟨b, harr⟩ := harr
  · exact h a (harr ▸ ha)
  · exact h a (harr ▸ List.mem_cons_of_mem b ha)

theorem Inv.exists_step {s : State} (h : Inv s) (hselect : s.AllSelect) : ∃ t, step s = .next t := by
  obtain hended | hnext | ⟨e, rest, hnext⟩ := s.moves_cases
  · exact ⟨s, step_of_runEnded hended⟩
  · obtain ⟨i, t, -, hstep, ht⟩ := h.step_of_completesNext hnext
    exact ⟨t, hstep.trans ht⟩
  · have ⟨after, harr, _⟩ := hnext
    have hsel : e.selects s.params = true := hselect _ (harr ▸ List.mem_cons_self)
    rw [step_of_nextIs hnext]
    exact State.exists_perform_of_selects (s := { s with arrivals := rest }) hsel

/-- Settles O54: the step that there is keeps both conditions. -/
theorem neverStops : Obligations.NeverStops := by
  intro s h hselect
  obtain ⟨t, hstep⟩ := h.exists_step hselect
  exact ⟨t, hstep, stepKeepsInv s t h hstep, hselect.of_step hstep⟩

theorem State.arrivals_of_perform {s t : State} {e : HostEvent} (h : s.perform e = .next t) :
    t.arrivals = s.arrivals := by
  cases State.perform_effect h <;> simp

/-- The host events of a run without reset leave the running command alone until its completion is next. -/
theorem exists_run_completesNext {s : State} (h : Inv s) (hselect : s.AllSelect) (hb : s.busy = true)
    (hreset : ∀ a ∈ s.arrivals, a.event ≠ .reset) :
    ∃ k u, k ≤ s.arrivals.length ∧ Sys2Proof.core.run k s = .next u ∧ Claims.CompletesNext u ∧ Inv u ∧
      u.inflight = s.inflight ∧ u.regs = s.regs ∧ u.cmd = s.cmd := by
  induction hn : s.arrivals.length generalizing s with
  | zero =>
    have hnil := List.eq_nil_of_length_eq_zero hn
    exact ⟨0, s, le_rfl, rfl, ⟨hb, by simp [hnil]⟩, h, rfl, rfl, rfl⟩
  | succ n ih =>
    obtain ⟨-, hidle⟩ | hnext | ⟨e, rest, hnext⟩ := s.moves_cases
    · simp [hidle] at hb
    · exact ⟨0, s, Nat.zero_le _, rfl, hnext, h, rfl, rfl, rfl⟩
    · obtain ⟨t, hstep⟩ := h.exists_step hselect
      have ⟨after, harr, _⟩ := hnext
      have hperform := (step_of_nextIs hnext).symm.trans hstep
      have htarr : t.arrivals = rest := State.arrivals_of_perform hperform
      obtain ⟨hinflight, hregs, -, hcmd, -, -⟩ := hostCannotTouchRunningCommand { s with arrivals := rest } t e hb
        (hreset _ (harr ▸ List.mem_cons_self)) hperform
      obtain ⟨k, u, hk, hrun, hcompletes, hinv, hinflight', hregs', hcmd'⟩ := ih
        (stepKeepsInv s t h hstep) (hselect.of_step hstep) (by rw [State.busy, hinflight]; exact hb)
        (fun a ha => hreset a (harr ▸ List.mem_cons_of_mem _ (htarr ▸ ha)))
        (by simpa [htarr, harr] using hn)
      exact ⟨k + 1, u, Nat.succ_le_succ hk, (run_of_step hstep).trans hrun, hcompletes, hinv,
        hinflight'.trans hinflight, hregs'.trans hregs, hcmd'.trans hcmd⟩

/-- Settles O55: the events before the completion, then the completion itself. -/
theorem completionComes : Obligations.CompletionComes := by
  intro s h hselect hb hreset
  obtain ⟨k, u, hk, hrun, hnext, hinv, hinflight, hregs, hcmd⟩ := exists_run_completesNext h hselect hb hreset
  obtain ⟨i, t, hi, hstep, ht⟩ := hinv.step_of_completesNext hnext
  obtain ⟨r, -, rfl⟩ := exec_eq_next.mp ht
  exact ⟨k, u, i, _, hk, hrun, hnext, hinflight, hregs, hcmd, hcmd ▸ hi, hstep, ht, State.busy_complete ..,
    State.done_complete ..⟩

/-- A bound on the moves to come: an event, and the completion of the command it may start; and the
completion of the running command. -/
def State.movesLeft (s : State) : Nat := 2 * s.arrivals.length + s.busy.toNat

theorem State.movesLeft_lt_of_step {s t : State} (h : ¬ s.RunEnded) (hstep : step s = .next t) :
    t.movesLeft < s.movesLeft := by
  obtain ⟨harr, hidle, -⟩ | ⟨r, i, hr, -, -, rfl⟩ | ⟨a, rest, harr, -, hperform⟩ := step_cases hstep
  · exact absurd ⟨harr, by simp [State.busy, hidle]⟩ h
  · simp [State.movesLeft, State.busy, hr]
  · have htarr : t.arrivals = rest := State.arrivals_of_perform hperform
    have hbusy := t.busy.toNat_le
    simp only [State.movesLeft, htarr, harr, List.length_cons]
    omega

theorem exists_run_runEnded {n : Nat} {s : State} (h : Inv s) (hselect : s.AllSelect) (hn : s.movesLeft ≤ n) :
    ∃ k t, k ≤ n ∧ Sys2Proof.core.run k s = .next t ∧ t.RunEnded := by
  induction n generalizing s with
  | zero =>
    obtain ⟨t, hstep⟩ := h.exists_step hselect
    refine ⟨0, s, le_rfl, rfl, by_contra fun hended => ?_⟩
    exact Nat.not_lt_zero _ ((State.movesLeft_lt_of_step hended hstep).trans_le hn)
  | succ n ih =>
    by_cases hended : s.RunEnded
    · exact ⟨0, s, Nat.zero_le _, rfl, hended⟩
    · obtain ⟨u, hstep⟩ := h.exists_step hselect
      have hfewer := State.movesLeft_lt_of_step hended hstep
      obtain ⟨k, t, hk, hrun, ht⟩ := ih (stepKeepsInv s u h hstep) (hselect.of_step hstep) (by omega)
      exact ⟨k + 1, t, Nat.succ_le_succ hk, (run_of_step hstep).trans hrun, ht⟩

/-- Settles O56: every move of a run uses up one of those that are left. -/
theorem runsEnd : Obligations.RunsEnd := by
  intro s h hselect
  refine exists_run_runEnded h hselect ?_
  have hbusy := s.busy.toNat_le
  rw [State.movesLeft]
  omega

end Sys2Proof.Machine
end

section
/-! PROOFS. What the completion of a command does, written out from its snapshot: the word of a command as a
row of bit fields (R91, R98), the state after each outcome (R126, R127), and the validated arithmetic of MUL,
SUB and TOT (R140 to R146) as a chain of checks. -/

namespace Sys2Proof

/-- The fields of a word stand side by side, OP lowest (R91). -/
theorem Fields.toWord_eq_append (f : Fields) :
    f.toWord = f.rsv ++ f.rs3 ++ f.rs2 ++ f.rs1 ++ f.rd ++ f.op := by
  apply BitVec.eq_of_getLsbD_eq (w := 12 + 4 + 4 + 4 + 4 + 4)
  intro i hi
  simp only [BitVec.getLsbD_append]
  interval_cases i <;> simp [Fields.toWord]

theorem Fields.toWord_without_rs3 (op rd rs1 rs2 : BitVec 4) :
    (Fields.mk op rd rs1 rs2 0 0).toWord = (0 : BitVec 16) ++ rs2 ++ rs1 ++ rd ++ op := by
  have hzero : (0 : BitVec 12) ++ (0 : BitVec 4) = (0 : BitVec 16) := by decide
  rw [Fields.toWord_eq_append, hzero]

end Sys2Proof

namespace Sys2Proof.Machine

/-! A completion, outcome by outcome (R126, R127). -/

/-- The snapshot that a command with the fields f takes (R124). -/
def snapshotOfFields (f : Fields) (t : State) : InFlight :=
  { op := f.op, rd := f.rd, a := t.reg (regOf f.rs1), b := t.reg (regOf f.rs2), c := t.reg (regOf f.rs3),
    kp := t.keyP, kq := t.keyQ, ke := t.keyE }

theorem snapshot_encode (i : Instr) (t : State) : snapshot (encode i) t = snapshotOfFields i.fields t :=
  congrArg (snapshotOfFields · t) (fieldsOf_encode i)

/-- The completion of a command, from the outcome of its command function on the operands it names. -/
theorem exec_of_snapshot {i : Instr} {s t : State} {o : CmdOutcome}
    (h : s.inflight = some (snapshot (encode i) t))
    (ho : outcomeOf s.params.W (snapshotOfFields i.fields t) i = o) :
    exec i s = .next (s.complete (destOf i) o) := by
  rw [exec_running h, snapshot_encode, ho]

/-- A check that fails ends the command (R127, R208). -/
theorem State.complete_failIf {c : Prop} [Decidable c] (rd : Option RegIdx) (code : ErrCode) (stage : Stage)
    (o : CmdOutcome) (s : State) :
    s.complete rd (if c then .fail code stage else o) =
      if c then Claims.reported code stage s else s.complete rd o :=
  apply_ite (s.complete rd) c _ _

theorem CmdOutcome.failIf_andThen {c : Prop} [Decidable c] (code : ErrCode) (stage : Stage) (v : Nat)
    (k : Nat → CmdOutcome) :
    (if c then .fail code stage else .ok v : CmdOutcome).andThen k = if c then .fail code stage else k v :=
  apply_ite (CmdOutcome.andThen · k) c _ _

/-! The command functions as chains of checks (R140 to R146). -/

theorem fMul_eq (W a b : Nat) :
    fMul W a b =
      if a = 0 ∨ b = 0 then .fail .badarg .noStage
      else if 2 ^ W ≤ a * b then .fail .overflow .noStage
      else .ok (a * b) :=
  CmdOutcome.failIf_andThen _ _ _ _

theorem fSub_eq (a b : Nat) : fSub a b = if a < b then .fail .badarg .noStage else .ok (a - b) := rfl

/-- The subtractions of R145 refuse a factor 0, and the multiply a factor 1, whose predecessor is 0. -/
theorem totient_eq (p q : Nat) (st : Stage) :
    totient p q st = if p ≤ 1 ∨ q ≤ 1 then .fail .badarg st else .ok ((p - 1) * (q - 1)) := by
  simp only [totient, vsub, vmul, CmdOutcome.failIf_andThen, ← ite_or]
  exact if_congr (by omega) rfl rfl

theorem fTot_eq (W p q : Nat) :
    fTot W p q =
      if p ≤ 1 ∨ q ≤ 1 then .fail .badarg .noStage
      else if 2 ^ W ≤ (p - 1) * (q - 1) then .fail .overflow .noStage
      else .ok ((p - 1) * (q - 1)) := by
  rw [fTot, totient_eq]
  exact CmdOutcome.failIf_andThen _ _ _ _

/-! The obligations: the word, then the checks of the command function in their order. -/

/-- Settles O10: a zero factor is refused first, then a product that does not fit. -/
theorem mulResult : Obligations.MulResult := by
  intro s t rd rs1 rs2
  refine ⟨Fields.toWord_without_rs3 _ _ _ _, fun h => (exec_of_snapshot h (fMul_eq _ _ _)).trans ?_⟩
  rw [State.complete_failIf, State.complete_failIf]
  rfl

/-- Settles O11: the one check is that the difference does not underflow. -/
theorem subResult : Obligations.SubResult := by
  intro s t rd rs1 rs2
  refine ⟨Fields.toWord_without_rs3 _ _ _ _, fun h => (exec_of_snapshot h (fSub_eq _ _)).trans ?_⟩
  rw [State.complete_failIf]
  rfl

/-- Settles O12: a factor 0 or 1 is refused first, then a product of predecessors that does not fit. -/
theorem totResult : Obligations.TotResult := by
  intro s t rd rs1 rs2
  refine ⟨Fields.toWord_without_rs3 _ _ _ _, fun h => (exec_of_snapshot h (fTot_eq _ _ _)).trans ?_⟩
  rw [State.complete_failIf, State.complete_failIf]
  rfl

end Sys2Proof.Machine
end

section
/-! PROOFS. The coprimality gate and the modular inverse: COPR, MINV (R160 to R168). Both loops compute the
remainders of Euclid's algorithm, and the coefficients of R165 keep a congruence modulo m along them. -/

namespace Sys2Proof.Machine

/-! The loop of R168. -/

/-- One turn of the loop keeps the greatest common divisor (R169). -/
theorem gcd_turn (x y : Nat) : Nat.gcd y (x % y) = Nat.gcd x y := by
  rw [Nat.gcd_comm y, ← Nat.gcd_rec, Nat.gcd_comm]

/-- The loop ends within y turns, since the remainders decrease from y (R169). -/
theorem euclidLoop_eq_gcd {n x y : Nat} (h : y ≤ n) : euclidLoop n x y = Nat.gcd x y := by
  induction n generalizing x y with
  | zero =>
    obtain rfl := Nat.le_zero.mp h
    exact (Nat.gcd_zero_right x).symm
  | succ n ih =>
    rw [euclidLoop]
    split
    · next hy => rw [hy, Nat.gcd_zero_right]
    · next hy =>
      have hlt : x % y < y := Nat.mod_lt x (Nat.pos_of_ne_zero hy)
      rw [ih (by omega), gcd_turn]

theorem euclid_eq_gcd (a b : Nat) : euclid a b = Nat.gcd a b := euclidLoop_eq_gcd le_rfl

/-- Settles O18: both sides are the greatest common divisor, which one turn keeps. -/
theorem euclidIterates : Obligations.EuclidIterates := by
  intro a b
  simp only [euclid_eq_gcd]
  split
  · next hb => rw [hb, Nat.gcd_zero_right]
  · exact (gcd_turn a b).symm

/-- Settles O19. -/
theorem euclidIsGcd : Obligations.EuclidIsGcd :=
  fun a b => ⟨euclid_eq_gcd a b, by rw [euclid_eq_gcd, euclid_eq_gcd, Nat.gcd_comm]⟩

/-! The loop of R165. -/

/-- The remainders of the loop of R165 are those of the loop of R168. -/
theorem extEuclidLoop_fst (m n r0 r1 t0 t1 : Nat) : (extEuclidLoop m n r0 r1 t0 t1).1 = euclidLoop n r0 r1 := by
  induction n generalizing r0 r1 t0 t1 with
  | zero => rfl
  | succ n ih =>
    rw [extEuclidLoop, euclidLoop]
    split
    · rfl
    · rw [ih, Nat.mod_eq_sub_div_mul]

/-- The reduced difference of R165 adds m before it subtracts, so it is the difference modulo m. -/
theorem natCast_reducedDiff {m : Nat} (hm : 0 < m) (t u : Nat) :
    (((t + m - u % m) % m : Nat) : ZMod m) = t - u := by
  have hle : u % m ≤ t + m := (Nat.mod_lt u hm).le.trans (Nat.le_add_left m t)
  simp [Nat.cast_sub hle]

/-- Each coefficient times x is its remainder modulo m; one turn takes the same combination of both. -/
theorem mul_extEuclidLoop_snd {x m : Nat} (hm : 0 < m) (n r0 r1 t0 t1 : Nat)
    (h0 : (x * t0 : ZMod m) = r0) (h1 : (x * t1 : ZMod m) = r1) :
    (x * (extEuclidLoop m n r0 r1 t0 t1).2 : ZMod m) = (extEuclidLoop m n r0 r1 t0 t1).1 := by
  induction n generalizing r0 r1 t0 t1 with
  | zero => exact h0
  | succ n ih =>
    rw [extEuclidLoop]
    split
    · exact h0
    · refine ih _ _ _ _ h1 ?_
      rw [natCast_reducedDiff hm, Nat.cast_sub (Nat.div_mul_le_self r0 r1)]
      push_cast
      linear_combination h0 - (r0 / r1 : Nat) * h1

theorem extEuclid_fst {x m : Nat} (hm : 0 < m) : (extEuclid x m).1 = Nat.gcd x m := by
  have hlt : x % m < m := Nat.mod_lt x hm
  rw [extEuclid, extEuclidLoop_fst, euclidLoop_eq_gcd hlt.le, gcd_turn]

/-- The coefficient that survives is the inverse of x whenever there is one (R165). -/
theorem mul_extEuclid_snd {x m : Nat} (hm : 0 < m) (hgcd : Nat.gcd x m = 1) :
    x * (extEuclid x m).2 ≡ 1 [MOD m] := by
  have hinv : (x * (extEuclid x m).2 : ZMod m) = (extEuclid x m).1 :=
    mul_extEuclidLoop_snd hm m m (x % m) 0 1 (by simp) (by simp)
  rw [extEuclid_fst hm, hgcd] at hinv
  exact (ZMod.natCast_eq_natCast_iff _ _ _).mp (by exact_mod_cast hinv)

/-- Modulo m, no two naturals below m are inverses of one x. -/
theorem inverse_unique {x m d d' : Nat} (hgcd : Nat.gcd x m = 1) (hd : d < m) (hd' : d' < m)
    (h : x * d ≡ 1 [MOD m]) (h' : x * d' ≡ 1 [MOD m]) : d' = d :=
  (Nat.ModEq.cancel_left_of_coprime (Nat.gcd_comm m x ▸ hgcd) (h'.trans h.symm)).eq_of_lt_of_lt hd' hd

/-! The command functions as chains of checks (R160 to R163). -/

theorem coprime_eq (x y : Nat) (st : Stage) :
    coprime x y st = if Nat.gcd x y = 1 then .okNoDest else .fail .opfail st := by
  rw [coprime, euclid_eq_gcd]

theorem modinv_eq (x m : Nat) (st : Stage) :
    modinv x m st =
      if m = 0 then .fail .badarg st
      else if Nat.gcd x m ≠ 1 then .fail .opfail st
      else .ok (extEuclid x m).2 := by
  rw [modinv, euclid_eq_gcd]

/-- Settles O20: the surviving coefficient is an inverse below m, and x can be cancelled modulo m. -/
theorem modinvIsTheInverse : Obligations.ModinvIsTheInverse := by
  intro x m st
  rw [modinv_eq]
  refine ⟨fun hm => if_pos hm, fun hm hgcd => by rw [if_neg hm, if_pos hgcd], fun hm hgcd => ?_⟩
  have hpos : 0 < m := Nat.pos_of_ne_zero hm
  refine ⟨(extEuclid x m).2, by rw [if_neg hm, if_neg (not_not_intro hgcd)], fun d' => ⟨?_, ?_⟩⟩
  · rintro ⟨hlt, hinv⟩
    exact inverse_unique hgcd (extEuclid_snd_lt hpos) hlt (mul_extEuclid_snd hpos hgcd) hinv
  · rintro rfl
    exact ⟨extEuclid_snd_lt hpos, mul_extEuclid_snd hpos hgcd⟩

/-! The obligations about the commands: the word, then the checks of the command function in their order. -/

/-- Settles O13: the one check of COPR is the gate, which carries no value. -/
theorem coprResult : Obligations.CoprResult := by
  intro s t rs1 rs2
  refine ⟨Fields.toWord_without_rs3 _ _ _ _, fun h => (exec_of_snapshot h (coprime_eq _ _ _)).trans ?_⟩
  exact congrArg Host.Outcome.next (apply_ite (s.complete none) _ _ _)

/-- Settles O14: a zero modulus is refused first, then an operand without an inverse. -/
theorem minvResult : Obligations.MinvResult := by
  intro s t rd rs1 rs2
  refine ⟨Fields.toWord_without_rs3 _ _ _ _, fun h => ⟨(extEuclid (t.reg rs1) (t.reg rs2)).2, ?_, ?_⟩⟩
  · intro hm hgcd
    have hpos := Nat.pos_of_ne_zero hm
    exact ⟨extEuclid_snd_lt hpos, mul_extEuclid_snd hpos hgcd⟩
  · refine (exec_of_snapshot h (modinv_eq _ _ _)).trans ?_
    rw [State.complete_failIf, State.complete_failIf]
    rfl

end Sys2Proof.Machine
end

section
/-! PROOFS. Square-and-multiply computes the power (R183, R184). MEXP, and ENC and DEC, as chains of checks (R180
to R182): ENC and DEC make the same checks of the key, so they fail alike. -/

namespace Sys2Proof

theorem Fields.toWord_without_rs2_rs3 (op rd rs1 : BitVec 4) :
    (Fields.mk op rd rs1 0 0 0).toWord = (0 : BitVec 20) ++ rs1 ++ rd ++ op := by
  have hzero : (0 : BitVec 12) ++ (0 : BitVec 4) ++ (0 : BitVec 4) = (0 : BitVec 20) := by decide
  rw [Fields.toWord_eq_append, hzero]

end Sys2Proof

namespace Sys2Proof.Machine

/-! The loop of R184. -/

theorem div_two_pow_eq_add_testBit (k i : Nat) : k / 2 ^ i = 2 * (k / 2 ^ (i + 1)) + (k.testBit i).toNat := by
  rw [Nat.toNat_testBit, pow_succ, ← Nat.div_div_eq_div_mul, Nat.div_add_mod]

/-- One turn squares, which doubles the exponent, and multiplies by b where the next bit of k is 1. -/
theorem squareMultiply_turn {b k m i acc : Nat} (h : acc ≡ b ^ (k / 2 ^ (i + 1)) [MOD m]) :
    (if k.testBit i then acc * acc % m * b % m else acc * acc % m) ≡ b ^ (k / 2 ^ i) [MOD m] := by
  have hsquare : acc * acc % m ≡ b ^ (2 * (k / 2 ^ (i + 1))) [MOD m] := by
    rw [two_mul, pow_add]
    exact (Nat.mod_modEq _ m).trans (h.mul h)
  rw [div_two_pow_eq_add_testBit]
  cases k.testBit i with
  | false => exact hsquare
  | true => exact (Nat.mod_modEq _ m).trans (hsquare.mul_right b)

/-- Before the turn for bit i - 1, the accumulator is the power for the bits of k from i on. -/
theorem squareMultiply_modEq {b k m i acc : Nat} (h : acc ≡ b ^ (k / 2 ^ i) [MOD m]) :
    squareMultiply b k m i acc ≡ b ^ k [MOD m] := by
  induction i generalizing acc with
  | zero => simpa [squareMultiply] using h
  | succ i ih => exact ih (squareMultiply_turn h)

theorem lt_two_pow_bitlen (k : Nat) : k < 2 ^ bitlen k := by
  unfold bitlen
  split
  · next hk => simp [hk]
  · exact Nat.lt_log2_self

/-- The loop starts above the highest bit of k, with the power for no bits. -/
theorem modexp_eq_pow_mod (base k : Nat) {m : Nat} (hm : 0 < m) : modexp base k m = base ^ k % m := by
  have hstart : 1 % m ≡ (base % m) ^ (k / 2 ^ bitlen k) [MOD m] := by
    rw [Nat.div_eq_of_lt (lt_two_pow_bitlen k), pow_zero]
    exact Nat.mod_modEq 1 m
  have hpow : modexp base k m ≡ base ^ k [MOD m] :=
    (squareMultiply_modEq hstart).trans ((Nat.mod_modEq base m).pow k)
  exact (Nat.mod_eq_of_modEq hpow.symm (modexp_lt base k hm)).symm

/-- Settles O21. -/
theorem modexpIsPower : Obligations.ModexpIsPower :=
  fun base k _ hm => ⟨modexp_eq_pow_mod base k hm, modexp_lt base k hm⟩

/-! The command functions as chains of checks (R180 to R182). -/

theorem fMexp_eq (base k m : Nat) :
    fMexp base k m = if m = 0 then .fail .badarg .noStage else .ok (base ^ k % m) :=
  if_ctx_congr Iff.rfl (fun _ => rfl) fun hm =>
    congrArg CmdOutcome.ok (modexp_eq_pow_mod base k (Nat.pos_of_ne_zero hm))

/-- The checks of a key p, q, e that ENC and DEC make, in their order, before either answers v. -/
def keyChecks (W p q e v : Nat) : CmdOutcome :=
  if p = 0 ∨ q = 0 then .fail .badarg .modulus
  else if 2 ^ W ≤ p * q then .fail .overflow .modulus
  else if p = 1 ∨ q = 1 then .fail .badarg .totient
  else if Nat.gcd e ((p - 1) * (q - 1)) ≠ 1 then .fail .opfail .exponent
  else .ok v

/-- Stages 1 and 2 leave stage 3 a modulus and a totient that are not zero. -/
theorem keyStages_eq_keyChecks {W p q e v : Nat} {rest : Nat → Nat → CmdOutcome}
    (h : 0 < p * q → 0 < (p - 1) * (q - 1) → rest (p * q) ((p - 1) * (q - 1)) =
      if Nat.gcd e ((p - 1) * (q - 1)) ≠ 1 then .fail .opfail .exponent else .ok v) :
    keyStages W p q rest = keyChecks W p q e v := by
  simp only [keyStages, vmul, fit, totient_eq, CmdOutcome.failIf_andThen]
  refine if_ctx_congr Iff.rfl (fun _ => rfl) fun hzero => if_ctx_congr Iff.rfl (fun _ => rfl) fun _ =>
    if_ctx_congr (by omega) (fun _ => rfl) fun hone => h ?_ ?_
  · exact Nat.mul_pos (by omega) (by omega)
  · exact Nat.mul_pos (by omega) (by omega)

theorem fEnc_eq (W msg p q e : Nat) : fEnc W msg p q e = keyChecks W p q e (msg ^ e % (p * q)) := by
  refine keyStages_eq_keyChecks fun hn _ => ?_
  rw [coprime_eq, modexp_eq_pow_mod msg e hn, ite_not]
  exact apply_ite (CmdOutcome.gate · _) _ _ _

/-- The exponent that DEC uses is the surviving coefficient of R165. -/
theorem fDec_eq (W ct p q e : Nat) :
    fDec W ct p q e = keyChecks W p q e (ct ^ (extEuclid e ((p - 1) * (q - 1))).2 % (p * q)) := by
  refine keyStages_eq_keyChecks fun hn hph => ?_
  rw [modinv_eq, if_neg hph.ne', CmdOutcome.failIf_andThen, modexp_eq_pow_mod ct _ hn]

/-- Settles O26: whether and how the checks fail does not depend on the value they let pass. -/
theorem encAndDecFailAlike : Obligations.EncAndDecFailAlike := by
  intro W msg ct p q e code st
  rw [fEnc_eq, fDec_eq]
  unfold keyChecks
  split_ifs
  iterate 4 exact Iff.rfl
  simp

/-! The obligations about the commands: the word, then the checks of the command function in their order. -/

/-- Settles O15: the one check of MEXP is that the modulus is not zero. -/
theorem mexpResult : Obligations.MexpResult := by
  intro s t rd rs1 rs2 rs3
  refine ⟨Fields.toWord_eq_append _, fun h => (exec_of_snapshot h (fMexp_eq _ _ _)).trans ?_⟩
  rw [State.complete_failIf]
  rfl

theorem State.complete_keyChecks (rd : RegIdx) (W p q e v : Nat) (s : State) :
    s.complete (some rd) (keyChecks W p q e v) =
      if p = 0 ∨ q = 0 then Claims.reported .badarg .modulus s
      else if 2 ^ W ≤ p * q then Claims.reported .overflow .modulus s
      else if p = 1 ∨ q = 1 then Claims.reported .badarg .totient s
      else if Nat.gcd e ((p - 1) * (q - 1)) ≠ 1 then Claims.reported .opfail .exponent s
      else Claims.succeeded rd v s := by
  simp only [keyChecks, State.complete_failIf]
  rfl

/-- Settles O16. -/
theorem encResult : Obligations.EncResult := by
  intro s t rd rs1
  refine ⟨Fields.toWord_without_rs2_rs3 _ _ _, fun h => (exec_of_snapshot h (fEnc_eq _ _ _ _ _)).trans ?_⟩
  exact congrArg Host.Outcome.next (State.complete_keyChecks rd _ _ _ _ _ s)

/-- Settles O17: the exponent of stage 4 is the coefficient of R165, an inverse wherever there is one. -/
theorem decResult : Obligations.DecResult := by
  intro s t rd rs1
  refine ⟨Fields.toWord_without_rs2_rs3 _ _ _, fun h =>
    ⟨(extEuclid t.keyE ((t.keyP - 1) * (t.keyQ - 1))).2, fun hph hgcd => ?_, ?_⟩⟩
  · have hpos := Nat.pos_of_ne_zero hph
    exact ⟨extEuclid_snd_lt hpos, mul_extEuclid_snd hpos hgcd⟩
  · refine (exec_of_snapshot h (fDec_eq _ _ _ _ _)).trans ?_
    exact congrArg Host.Outcome.next (State.complete_keyChecks rd _ _ _ _ _ s)

end Sys2Proof.Machine
end

section
/-! PROOFS. The round trip of R186: under a key of two distinct primes DEC undoes ENC, as numbers and then as
two commands that a host offers one after the other. -/

namespace Sys2Proof.Machine

/-! The arithmetic: Fermat's theorem modulo each prime, and the Chinese remainder theorem. -/

/-- A key under which R186 promises the round trip, apart from the width. -/
structure RoundTripKey (p q e : Nat) : Prop where
  primeP : p.Prime
  primeQ : q.Prime
  distinct : p ≠ q
  coprime : Nat.gcd e ((p - 1) * (q - 1)) = 1

/-- The conclusion of Fermat's theorem for a residue that may be zero, which the case k = 0 would spoil. -/
theorem pow_modEq_self_of_prime {p k : Nat} (hp : p.Prime) (hpos : 0 < k) (hk : 1 ≡ k [MOD p - 1]) (x : Nat) :
    x ^ k ≡ x [MOD p] := by
  have hpow : (x : ℤ) ^ k ≡ (x : ℤ) ^ 1 [ZMOD p] :=
    Int.ModEq.pow_eq_pow hp ((Nat.modEq_iff_dvd' hpos).mp hk) hpos one_pos x
  rw [pow_one] at hpow
  exact_mod_cast hpow

section Key
variable {p q e : Nat}

/-- Two distinct primes are not both 2. -/
theorem RoundTripKey.one_lt_totient (h : RoundTripKey p q e) : 1 < (p - 1) * (q - 1) := by
  have hp := h.primeP.two_le
  have hq := h.primeQ.two_le
  obtain hlt | hlt := Nat.lt_or_gt_of_ne h.distinct
  · exact one_lt_mul (by omega) (by omega)
  · exact one_lt_mul_of_lt_of_le (by omega) (by omega)

/-- An exponent that is 1 modulo the totient leaves every residue modulo p q as it is. -/
theorem RoundTripKey.pow_modEq_self (h : RoundTripKey p q e) {k : Nat} (hk : k ≡ 1 [MOD (p - 1) * (q - 1)])
    (x : Nat) : x ^ k ≡ x [MOD p * q] := by
  have hlt := h.one_lt_totient
  have hpos : 0 < k := Nat.pos_of_ne_zero fun hzero => by
    have hzeroOne : 0 = 1 := (hzero ▸ hk).eq_of_lt_of_lt (zero_lt_one.trans hlt) hlt
    exact zero_ne_one hzeroOne
  have hcoprime : Nat.Coprime p q := (Nat.coprime_primes h.primeP h.primeQ).mpr h.distinct
  exact (Nat.modEq_and_modEq_iff_modEq_mul hcoprime).mp
    ⟨pow_modEq_self_of_prime h.primeP hpos hk.symm.of_mul_right x,
      pow_modEq_self_of_prime h.primeQ hpos hk.symm.of_mul_left x⟩

/-- The power of ENC and then that of DEC give back a message below p q. -/
theorem RoundTripKey.pow_pow_mod (h : RoundTripKey p q e) {msg : Nat} (hmsg : msg < p * q) :
    (msg ^ e % (p * q)) ^ (extEuclid e ((p - 1) * (q - 1))).2 % (p * q) = msg := by
  rw [← Nat.pow_mod, ← pow_mul]
  have hinverse := mul_extEuclid_snd (zero_lt_one.trans h.one_lt_totient) h.coprime
  exact Nat.mod_eq_of_modEq (h.pow_modEq_self hinverse msg) hmsg

theorem RoundTripKey.keyChecks_eq_ok (h : RoundTripKey p q e) {W : Nat} (hW : p * q < 2 ^ W) (v : Nat) :
    keyChecks W p q e v = .ok v := by
  have hp := h.primeP.two_le
  have hq := h.primeQ.two_le
  rw [keyChecks, if_neg (by omega), if_neg (by omega), if_neg (by omega), if_neg (not_not_intro h.coprime)]

theorem RoundTripKey.fEnc_eq_ok (h : RoundTripKey p q e) {W : Nat} (hW : p * q < 2 ^ W) (msg : Nat) :
    fEnc W msg p q e = .ok (msg ^ e % (p * q)) :=
  (fEnc_eq W msg p q e).trans (h.keyChecks_eq_ok hW _)

/-- The command function of DEC undoes that of ENC. -/
theorem RoundTripKey.fDec_pow_eq_ok (h : RoundTripKey p q e) {W : Nat} (hW : p * q < 2 ^ W) {msg : Nat}
    (hmsg : msg < p * q) : fDec W (msg ^ e % (p * q)) p q e = .ok msg := by
  rw [fDec_eq, h.pow_pow_mod hmsg, h.keyChecks_eq_ok hW]

end Key

/-! The run. -/

/-- The state after the command i, offered to the idle block s and successful with v for rd, with the events of
`rest` still to come (R121, R126). -/
def State.afterSuccess (i : Instr) (rd : RegIdx) (v : Nat) (rest : List Arrival) (s : State) : State :=
  Claims.succeeded rd v ((State.accept (encode i) { s with arrivals := rest }).replyWith .done)

theorem State.reg_afterSuccess_self (i : Instr) (rd : RegIdx) (v : Nat) (rest : List Arrival) (s : State) :
    (s.afterSuccess i rd v rest).reg rd = v := by
  simp [State.afterSuccess, Claims.succeeded, State.reg]

/-- From idle, a command that the host offers and lets complete takes two steps of the run. -/
theorem run_command {k : Nat} {s : State} {i : Instr} {rd : RegIdx} {v : Nat} {after : Bool} {rest : List Arrival}
    (hb : s.busy = false) (harr : s.arrivals = { afterCompletion := after, event := opCmd s.params i } :: rest)
    (hrest : ∀ a l, rest = a :: l → a.afterCompletion = true) (hrd : destOf i = some rd)
    (ho : outcomeOf s.params.W (snapshotOfFields i.fields s) i = .ok v) :
    Sys2Proof.core.run (k + 2) s = Sys2Proof.core.run k (s.afterSuccess i rd v rest) := by
  have hoffered := step_of_cmdWrite ⟨after, harr, fun h => by simp [hb] at h⟩
    (State.offerCommand_legal (s := { s with arrivals := rest }) hb (encode_legal i))
  have hcompletes : Claims.CompletesNext ((State.accept (encode i) { s with arrivals := rest }).replyWith .done) :=
    ⟨rfl, hrest⟩
  have hcompleted := (step_of_snapshot hcompletes rfl (decodeOfEncode i)).trans (exec_of_snapshot rfl ho)
  rw [hrd] at hcompleted
  rw [run_of_step hoffered, run_of_step hcompleted]
  rfl

/-- Settles O22: two commands of two steps each, the second on what the first wrote. -/
theorem decUndoesEnc : Obligations.DecUndoesEnc := by
  intro s rm rc rd after hp hq hne hW hgcd hmsg hb harr
  have hkey : RoundTripKey s.keyP s.keyQ s.keyE := ⟨hp, hq, hne, hgcd⟩
  have hct := State.reg_afterSuccess_self (.enc rc rm) rc (s.reg rm ^ s.keyE % (s.keyP * s.keyQ))
    [{ afterCompletion := true, event := opCmd s.params (.dec rd rc) }] s
  have henc := run_command (k := 2) hb harr (by rintro _ _ ⟨⟩; rfl) rfl (hkey.fEnc_eq_ok hW _)
  have hdec := run_command (k := 0) (i := .dec rd rc) (after := true) (rest := []) rfl rfl (fun _ _ h => nomatch h)
    rfl ((congrArg (fDec _ · _ _ _) hct).trans (hkey.fDec_pow_eq_ok hW hmsg))
  exact ⟨_, henc.trans hdec, ⟨rfl, rfl⟩, rfl, State.reg_afterSuccess_self ..⟩

end Sys2Proof.Machine
end

section
/-! PROOFS. What each command reports (R201, R202): a table of codes with their stages, read off the checks of the
command functions and held against the rows of R201. -/

namespace Sys2Proof.Machine

/-- The code and the stage that an outcome reports (R126, R127). -/
@[simp] def CmdOutcome.report : CmdOutcome → ErrCode × Stage
  | .ok _ => (.ok, .noStage)
  | .okNoDest => (.ok, .noStage)
  | .fail code stage => (code, stage)

theorem State.report_complete (s : State) (rd : Option RegIdx) (o : CmdOutcome) :
    ((s.complete rd o).errcode, (s.complete rd o).estage) = o.report := by
  cases o <;> rfl

/-- What the checks of the key can report, stage by stage (R181, R182). -/
@[simp] def keyReports : List (ErrCode × Stage) :=
  [(.ok, .noStage), (.badarg, .modulus), (.overflow, .modulus), (.badarg, .totient), (.opfail, .exponent)]

/-- What each command can report: stages only from the checks of the key. -/
@[simp] def reportsOf : Instr → List (ErrCode × Stage)
  | .mul _ _ _ => [(.ok, .noStage), (.badarg, .noStage), (.overflow, .noStage)]
  | .sub _ _ _ => [(.ok, .noStage), (.badarg, .noStage)]
  | .tot _ _ _ => [(.ok, .noStage), (.badarg, .noStage), (.overflow, .noStage)]
  | .copr _ _ => [(.ok, .noStage), (.opfail, .noStage)]
  | .minv _ _ _ => [(.ok, .noStage), (.badarg, .noStage), (.opfail, .noStage)]
  | .mexp _ _ _ _ => [(.ok, .noStage), (.badarg, .noStage)]
  | .enc _ _ => keyReports
  | .dec _ _ => keyReports

/-- The table keeps to R201 and R202. -/
theorem allowed_of_mem_reportsOf (i : Instr) : ∀ x ∈ reportsOf i,
    x.1 ∈ Claims.codesOf i ∧ x.2 ∈ x.1.stages ∧ (Claims.isComposite i = false → x.2 = .noStage) := by
  cases i <;> simp [Claims.codesOf, ErrCode.stages, Claims.isComposite]

theorem keyChecks_report_mem (W p q e v : Nat) : (keyChecks W p q e v).report ∈ keyReports := by
  unfold keyChecks
  split_ifs <;> simp

/-- A command is a chain of checks, each with its report, and then success: along the key's checks for ENC and DEC,
and along its own for every other command. -/
theorem outcomeOf_report_mem (W : Nat) (r : InFlight) (i : Instr) : (outcomeOf W r i).report ∈ reportsOf i := by
  cases i with
  | enc _ _ =>
    rw [outcomeOf, fEnc_eq]
    exact keyChecks_report_mem ..
  | dec _ _ =>
    rw [outcomeOf, fDec_eq]
    exact keyChecks_report_mem ..
  | _ =>
    simp only [outcomeOf, fMul_eq, fSub_eq, fTot_eq, fCopr, coprime_eq, fMinv, modinv_eq, fMexp_eq]
    split_ifs <;> simp

/-- Settles O24: the completion reports what the command function answers, which is in the table. -/
theorem reportedCodes : Obligations.ReportedCodes := by
  intro i s t h
  obtain ⟨r, -, rfl⟩ := exec_eq_next.mp h
  have hreport := State.report_complete s (destOf i) (outcomeOf s.params.W r i)
  exact allowed_of_mem_reportsOf i _ (hreport ▸ outcomeOf_report_mem s.params.W r i)

end Sys2Proof.Machine
end

section
/-! PROOFS. Two hazards: a register word read while a command runs (R224), and ENC or DEC under a key that was
never loaded, which a reset leaves (R222). -/

namespace Sys2Proof.Machine

/-! A backed word while a command runs (R224). -/

theorem State.readTarget_busyWord {s : State} (hb : s.busy = true) {j : Nat} (hj : j < s.params.NW)
    (x : RegName) :
    s.readTarget (wordTarget x j) = (Config.busyRead s.draws, { s with draws := s.draws + 1 }) := by
  cases x with
  | data i => simp [wordTarget, State.readTarget, State.readRegWord, hb, hj]
  | key k => simp [wordTarget, State.readTarget, State.readRegWord, hb, hj]

theorem State.perform_readBusyWord {s : State} (x : RegName) {j : Nat} (hb : s.busy = true)
    (hj : j < s.params.NW) (hslot : j < 128) :
    s.perform (.read (s.params.base + (slotOf x + 4 * j)) 4) =
      .next { s with reply := some (.data (Config.busyRead s.draws)), draws := s.draws + 1 } := by
  rw [State.perform_read (slotOf_add_lt_windowSize x hslot) (slotOf_add_aligned x j), targetOf_slotOf x hslot,
    State.readTarget_busyWord hb hj]
  rfl

/-- Settles O38: each slot is that of a named register, and the word read does not depend on which. -/
theorem busyReadsAreFree : Obligations.BusyReadsAreFree := fun _ _ hb hj hslot =>
  ⟨fun i => State.perform_readBusyWord (.data i) hb hj hslot,
    fun k => State.perform_readBusyWord (.key k) hb hj hslot⟩

/-! ENC and DEC under a key with a zero factor (R181, R182). -/

/-- Stage 1 is the first check of both commands, and a zero factor fails it. -/
theorem outcomeOf_composite_of_key_zero {i : Instr} (hi : Claims.isComposite i = true) {r : InFlight}
    (hkey : r.kp = 0 ∨ r.kq = 0) (W : Nat) : outcomeOf W r i = .fail .badarg .modulus := by
  cases i with
  | enc rd rs1 => exact (fEnc_eq ..).trans (if_pos hkey)
  | dec rd rs1 => exact (fDec_eq ..).trans (if_pos hkey)
  | _ => cases hi

/-- From any idle state whose key has a zero factor, whatever its registers hold, ENC or DEC fails at stage 1 and
writes no register. -/
theorem exists_run_composite_of_key_zero {s : State} {i : Instr} {after : Bool}
    (hi : Claims.isComposite i = true) (hkey : s.keyP = 0 ∨ s.keyQ = 0) (hb : s.busy = false)
    (harr : s.arrivals = [{ afterCompletion := after, event := opCmd s.params i }]) :
    ∃ t, Sys2Proof.core.run 2 s = .next t ∧ t.RunEnded ∧ t.errcode = .badarg ∧ t.estage = .modulus ∧
      ∀ j, t.reg j = s.reg j := by
  obtain ⟨t, u, haccept, hr, -, hregs, hcomplete, hexec, hended⟩ := commandRunsInTwoSteps s i after hb harr
  have hrun : Sys2Proof.core.run 2 s = .next u := by
    rw [run_of_step haccept, run_of_step (hcomplete.trans hexec)]
    rfl
  have hu : u = t.complete (destOf i) (.fail .badarg .modulus) := by
    rw [exec_running hr, outcomeOf_composite_of_key_zero hi hkey] at hexec
    exact (Host.Outcome.next.inj hexec).symm
  subst hu
  exact ⟨_, hrun, hended, rfl, rfl, fun j => congrArg (·[j]) hregs⟩

/-- Settles O45: the reset input clears every register, and the state after reset is idle with a zero key. -/
theorem noKeyAfterReset : Obligations.NoKeyAfterReset := by
  constructor
  · rintro s t ⟨⟩
    exact ⟨State.key_hardReset s, State.reg_hardReset s⟩
  · intro p i after hi
    obtain ⟨t, hrun, hended, hcode, hstage, hreg⟩ := exists_run_composite_of_key_zero hi
      (s := { State.resetOf p with arrivals := [{ afterCompletion := after, event := opCmd p i }] })
      (.inl rfl) rfl rfl
    exact ⟨t, hrun, hended, hcode, hstage, fun j => (hreg j).trans (State.reg_resetOf p j)⟩

end Sys2Proof.Machine
end
